-- ==== Sys2Proof/Word.lean ====
section
/-! DEFINITION. The two value widths of the core (00_scope.md R6, R7): a byte is 8 bits, a word is 16 bits.
Both are unsigned and wrap; a signed reading is taken only where a rule says so. -/

namespace Sys2Proof

/-- An 8-bit value: A, X, Y, SP, a memory byte, a one-byte operand (R7). -/
abbrev Byte := BitVec 8

/-- A 16-bit value: PC, a memory address, a two-byte operand (R7). -/
abbrev Word := BitVec 16

end Sys2Proof
end

