-- ==== Sys2Proof/Syntax.lean ====
section
/-! DEFINITION. The instructions: one constructor of `Instr` for each of the 151 rows of spec/opcode_table.json
(30_encoding.md R65, R66), named by the row's mnemonic and addressing mode and carrying the operand bytes the mode
assembles (R61, R62). BRK's padding byte is no field: it is never read (R71; log entry 11). -/

namespace Sys2Proof

/-- The 56 mnemonics (R66). -/
inductive Mnemonic where
  | lda | ldx | ldy | sta | stx | sty
  | tax | tay | txa | tya | tsx | txs
  | adc | sbc
  | inc | dec | inx | iny | dex | dey
  | asl | lsr | rol | ror
  | and | ora | eor | cmp | cpx | cpy
  | bcc | bcs | beq | bne | bmi | bpl | bvc | bvs
  | jmp | jsr | rts
  | pha | pla | php | plp | clc | sec | cli | sei | cld | sed | clv
  | bit | nop | brk | rti
  deriving DecidableEq, Repr

/-- The 13 addressing modes, a closed enumeration (40_addressing_modes.md R80). -/
inductive Mode where
  | implied | accumulator | immediate
  | zeroPage | zeroPageX | zeroPageY
  | absolute | absoluteX | absoluteY
  | indirect | indexedIndirect | indirectIndexed
  | relative
  deriving DecidableEq, Repr

/-- A row of the opcode table as a pairing of a mnemonic with a mode (R66). -/
structure Form where
  mnemonic : Mnemonic
  mode : Mode
  deriving DecidableEq, Repr

/-- The instructions. `imm` is an immediate byte, `zp` a page-zero address byte, `addr` a 16-bit address,
`ptr` a 16-bit pointer address, `disp` a signed displacement byte (R61). -/
inductive Instr where
  -- Loads and stores (41_load_store_transfer.md)
  | ldaImm (imm : Byte)
  | ldaZp (zp : Byte)
  | ldaZpX (zp : Byte)
  | ldaAbs (addr : Word)
  | ldaAbsX (addr : Word)
  | ldaAbsY (addr : Word)
  | ldaIndX (zp : Byte)
  | ldaIndY (zp : Byte)
  | ldxImm (imm : Byte)
  | ldxZp (zp : Byte)
  | ldxZpY (zp : Byte)
  | ldxAbs (addr : Word)
  | ldxAbsY (addr : Word)
  | ldyImm (imm : Byte)
  | ldyZp (zp : Byte)
  | ldyZpX (zp : Byte)
  | ldyAbs (addr : Word)
  | ldyAbsX (addr : Word)
  | staZp (zp : Byte)
  | staZpX (zp : Byte)
  | staAbs (addr : Word)
  | staAbsX (addr : Word)
  | staAbsY (addr : Word)
  | staIndX (zp : Byte)
  | staIndY (zp : Byte)
  | stxZp (zp : Byte)
  | stxZpY (zp : Byte)
  | stxAbs (addr : Word)
  | styZp (zp : Byte)
  | styZpX (zp : Byte)
  | styAbs (addr : Word)
  -- Transfers (41_load_store_transfer.md)
  | tax
  | tay
  | txa
  | tya
  | tsx
  | txs
  -- Arithmetic (42_arithmetic.md)
  | adcImm (imm : Byte)
  | adcZp (zp : Byte)
  | adcZpX (zp : Byte)
  | adcAbs (addr : Word)
  | adcAbsX (addr : Word)
  | adcAbsY (addr : Word)
  | adcIndX (zp : Byte)
  | adcIndY (zp : Byte)
  | sbcImm (imm : Byte)
  | sbcZp (zp : Byte)
  | sbcZpX (zp : Byte)
  | sbcAbs (addr : Word)
  | sbcAbsX (addr : Word)
  | sbcAbsY (addr : Word)
  | sbcIndX (zp : Byte)
  | sbcIndY (zp : Byte)
  -- Increment and decrement (43_incdec.md)
  | incZp (zp : Byte)
  | incZpX (zp : Byte)
  | incAbs (addr : Word)
  | incAbsX (addr : Word)
  | decZp (zp : Byte)
  | decZpX (zp : Byte)
  | decAbs (addr : Word)
  | decAbsX (addr : Word)
  | inx
  | iny
  | dex
  | dey
  -- Shifts and rotates (44_shift_rotate.md)
  | aslAcc
  | aslZp (zp : Byte)
  | aslZpX (zp : Byte)
  | aslAbs (addr : Word)
  | aslAbsX (addr : Word)
  | lsrAcc
  | lsrZp (zp : Byte)
  | lsrZpX (zp : Byte)
  | lsrAbs (addr : Word)
  | lsrAbsX (addr : Word)
  | rolAcc
  | rolZp (zp : Byte)
  | rolZpX (zp : Byte)
  | rolAbs (addr : Word)
  | rolAbsX (addr : Word)
  | rorAcc
  | rorZp (zp : Byte)
  | rorZpX (zp : Byte)
  | rorAbs (addr : Word)
  | rorAbsX (addr : Word)
  -- Logic and compare (45_logic_compare.md)
  | andImm (imm : Byte)
  | andZp (zp : Byte)
  | andZpX (zp : Byte)
  | andAbs (addr : Word)
  | andAbsX (addr : Word)
  | andAbsY (addr : Word)
  | andIndX (zp : Byte)
  | andIndY (zp : Byte)
  | oraImm (imm : Byte)
  | oraZp (zp : Byte)
  | oraZpX (zp : Byte)
  | oraAbs (addr : Word)
  | oraAbsX (addr : Word)
  | oraAbsY (addr : Word)
  | oraIndX (zp : Byte)
  | oraIndY (zp : Byte)
  | eorImm (imm : Byte)
  | eorZp (zp : Byte)
  | eorZpX (zp : Byte)
  | eorAbs (addr : Word)
  | eorAbsX (addr : Word)
  | eorAbsY (addr : Word)
  | eorIndX (zp : Byte)
  | eorIndY (zp : Byte)
  | cmpImm (imm : Byte)
  | cmpZp (zp : Byte)
  | cmpZpX (zp : Byte)
  | cmpAbs (addr : Word)
  | cmpAbsX (addr : Word)
  | cmpAbsY (addr : Word)
  | cmpIndX (zp : Byte)
  | cmpIndY (zp : Byte)
  | cpxImm (imm : Byte)
  | cpxZp (zp : Byte)
  | cpxAbs (addr : Word)
  | cpyImm (imm : Byte)
  | cpyZp (zp : Byte)
  | cpyAbs (addr : Word)
  -- Branches (46_branch.md)
  | bcc (disp : Byte)
  | bcs (disp : Byte)
  | beq (disp : Byte)
  | bne (disp : Byte)
  | bmi (disp : Byte)
  | bpl (disp : Byte)
  | bvc (disp : Byte)
  | bvs (disp : Byte)
  -- Jumps and calls (47_jump_call.md)
  | jmpAbs (addr : Word)
  | jmpInd (ptr : Word)
  | jsr (addr : Word)
  | rts
  -- Stack and flag instructions (48_stack_flag.md)
  | pha
  | pla
  | php
  | plp
  | clc
  | sec
  | cli
  | sei
  | cld
  | sed
  | clv
  -- BIT, NOP, BRK, RTI (49_bit_nop_brk_rti.md)
  | bitZp (zp : Byte)
  | bitAbs (addr : Word)
  | nop
  | brk
  | rti
  deriving DecidableEq, Repr

/-- The row of the opcode table an instruction stands for (R66). -/
def Instr.form : Instr → Form
  | .ldaImm _ => ⟨.lda, .immediate⟩
  | .ldaZp _ => ⟨.lda, .zeroPage⟩
  | .ldaZpX _ => ⟨.lda, .zeroPageX⟩
  | .ldaAbs _ => ⟨.lda, .absolute⟩
  | .ldaAbsX _ => ⟨.lda, .absoluteX⟩
  | .ldaAbsY _ => ⟨.lda, .absoluteY⟩
  | .ldaIndX _ => ⟨.lda, .indexedIndirect⟩
  | .ldaIndY _ => ⟨.lda, .indirectIndexed⟩
  | .ldxImm _ => ⟨.ldx, .immediate⟩
  | .ldxZp _ => ⟨.ldx, .zeroPage⟩
  | .ldxZpY _ => ⟨.ldx, .zeroPageY⟩
  | .ldxAbs _ => ⟨.ldx, .absolute⟩
  | .ldxAbsY _ => ⟨.ldx, .absoluteY⟩
  | .ldyImm _ => ⟨.ldy, .immediate⟩
  | .ldyZp _ => ⟨.ldy, .zeroPage⟩
  | .ldyZpX _ => ⟨.ldy, .zeroPageX⟩
  | .ldyAbs _ => ⟨.ldy, .absolute⟩
  | .ldyAbsX _ => ⟨.ldy, .absoluteX⟩
  | .staZp _ => ⟨.sta, .zeroPage⟩
  | .staZpX _ => ⟨.sta, .zeroPageX⟩
  | .staAbs _ => ⟨.sta, .absolute⟩
  | .staAbsX _ => ⟨.sta, .absoluteX⟩
  | .staAbsY _ => ⟨.sta, .absoluteY⟩
  | .staIndX _ => ⟨.sta, .indexedIndirect⟩
  | .staIndY _ => ⟨.sta, .indirectIndexed⟩
  | .stxZp _ => ⟨.stx, .zeroPage⟩
  | .stxZpY _ => ⟨.stx, .zeroPageY⟩
  | .stxAbs _ => ⟨.stx, .absolute⟩
  | .styZp _ => ⟨.sty, .zeroPage⟩
  | .styZpX _ => ⟨.sty, .zeroPageX⟩
  | .styAbs _ => ⟨.sty, .absolute⟩
  | .tax => ⟨.tax, .implied⟩
  | .tay => ⟨.tay, .implied⟩
  | .txa => ⟨.txa, .implied⟩
  | .tya => ⟨.tya, .implied⟩
  | .tsx => ⟨.tsx, .implied⟩
  | .txs => ⟨.txs, .implied⟩
  | .adcImm _ => ⟨.adc, .immediate⟩
  | .adcZp _ => ⟨.adc, .zeroPage⟩
  | .adcZpX _ => ⟨.adc, .zeroPageX⟩
  | .adcAbs _ => ⟨.adc, .absolute⟩
  | .adcAbsX _ => ⟨.adc, .absoluteX⟩
  | .adcAbsY _ => ⟨.adc, .absoluteY⟩
  | .adcIndX _ => ⟨.adc, .indexedIndirect⟩
  | .adcIndY _ => ⟨.adc, .indirectIndexed⟩
  | .sbcImm _ => ⟨.sbc, .immediate⟩
  | .sbcZp _ => ⟨.sbc, .zeroPage⟩
  | .sbcZpX _ => ⟨.sbc, .zeroPageX⟩
  | .sbcAbs _ => ⟨.sbc, .absolute⟩
  | .sbcAbsX _ => ⟨.sbc, .absoluteX⟩
  | .sbcAbsY _ => ⟨.sbc, .absoluteY⟩
  | .sbcIndX _ => ⟨.sbc, .indexedIndirect⟩
  | .sbcIndY _ => ⟨.sbc, .indirectIndexed⟩
  | .incZp _ => ⟨.inc, .zeroPage⟩
  | .incZpX _ => ⟨.inc, .zeroPageX⟩
  | .incAbs _ => ⟨.inc, .absolute⟩
  | .incAbsX _ => ⟨.inc, .absoluteX⟩
  | .decZp _ => ⟨.dec, .zeroPage⟩
  | .decZpX _ => ⟨.dec, .zeroPageX⟩
  | .decAbs _ => ⟨.dec, .absolute⟩
  | .decAbsX _ => ⟨.dec, .absoluteX⟩
  | .inx => ⟨.inx, .implied⟩
  | .iny => ⟨.iny, .implied⟩
  | .dex => ⟨.dex, .implied⟩
  | .dey => ⟨.dey, .implied⟩
  | .aslAcc => ⟨.asl, .accumulator⟩
  | .aslZp _ => ⟨.asl, .zeroPage⟩
  | .aslZpX _ => ⟨.asl, .zeroPageX⟩
  | .aslAbs _ => ⟨.asl, .absolute⟩
  | .aslAbsX _ => ⟨.asl, .absoluteX⟩
  | .lsrAcc => ⟨.lsr, .accumulator⟩
  | .lsrZp _ => ⟨.lsr, .zeroPage⟩
  | .lsrZpX _ => ⟨.lsr, .zeroPageX⟩
  | .lsrAbs _ => ⟨.lsr, .absolute⟩
  | .lsrAbsX _ => ⟨.lsr, .absoluteX⟩
  | .rolAcc => ⟨.rol, .accumulator⟩
  | .rolZp _ => ⟨.rol, .zeroPage⟩
  | .rolZpX _ => ⟨.rol, .zeroPageX⟩
  | .rolAbs _ => ⟨.rol, .absolute⟩
  | .rolAbsX _ => ⟨.rol, .absoluteX⟩
  | .rorAcc => ⟨.ror, .accumulator⟩
  | .rorZp _ => ⟨.ror, .zeroPage⟩
  | .rorZpX _ => ⟨.ror, .zeroPageX⟩
  | .rorAbs _ => ⟨.ror, .absolute⟩
  | .rorAbsX _ => ⟨.ror, .absoluteX⟩
  | .andImm _ => ⟨.and, .immediate⟩
  | .andZp _ => ⟨.and, .zeroPage⟩
  | .andZpX _ => ⟨.and, .zeroPageX⟩
  | .andAbs _ => ⟨.and, .absolute⟩
  | .andAbsX _ => ⟨.and, .absoluteX⟩
  | .andAbsY _ => ⟨.and, .absoluteY⟩
  | .andIndX _ => ⟨.and, .indexedIndirect⟩
  | .andIndY _ => ⟨.and, .indirectIndexed⟩
  | .oraImm _ => ⟨.ora, .immediate⟩
  | .oraZp _ => ⟨.ora, .zeroPage⟩
  | .oraZpX _ => ⟨.ora, .zeroPageX⟩
  | .oraAbs _ => ⟨.ora, .absolute⟩
  | .oraAbsX _ => ⟨.ora, .absoluteX⟩
  | .oraAbsY _ => ⟨.ora, .absoluteY⟩
  | .oraIndX _ => ⟨.ora, .indexedIndirect⟩
  | .oraIndY _ => ⟨.ora, .indirectIndexed⟩
  | .eorImm _ => ⟨.eor, .immediate⟩
  | .eorZp _ => ⟨.eor, .zeroPage⟩
  | .eorZpX _ => ⟨.eor, .zeroPageX⟩
  | .eorAbs _ => ⟨.eor, .absolute⟩
  | .eorAbsX _ => ⟨.eor, .absoluteX⟩
  | .eorAbsY _ => ⟨.eor, .absoluteY⟩
  | .eorIndX _ => ⟨.eor, .indexedIndirect⟩
  | .eorIndY _ => ⟨.eor, .indirectIndexed⟩
  | .cmpImm _ => ⟨.cmp, .immediate⟩
  | .cmpZp _ => ⟨.cmp, .zeroPage⟩
  | .cmpZpX _ => ⟨.cmp, .zeroPageX⟩
  | .cmpAbs _ => ⟨.cmp, .absolute⟩
  | .cmpAbsX _ => ⟨.cmp, .absoluteX⟩
  | .cmpAbsY _ => ⟨.cmp, .absoluteY⟩
  | .cmpIndX _ => ⟨.cmp, .indexedIndirect⟩
  | .cmpIndY _ => ⟨.cmp, .indirectIndexed⟩
  | .cpxImm _ => ⟨.cpx, .immediate⟩
  | .cpxZp _ => ⟨.cpx, .zeroPage⟩
  | .cpxAbs _ => ⟨.cpx, .absolute⟩
  | .cpyImm _ => ⟨.cpy, .immediate⟩
  | .cpyZp _ => ⟨.cpy, .zeroPage⟩
  | .cpyAbs _ => ⟨.cpy, .absolute⟩
  | .bcc _ => ⟨.bcc, .relative⟩
  | .bcs _ => ⟨.bcs, .relative⟩
  | .beq _ => ⟨.beq, .relative⟩
  | .bne _ => ⟨.bne, .relative⟩
  | .bmi _ => ⟨.bmi, .relative⟩
  | .bpl _ => ⟨.bpl, .relative⟩
  | .bvc _ => ⟨.bvc, .relative⟩
  | .bvs _ => ⟨.bvs, .relative⟩
  | .jmpAbs _ => ⟨.jmp, .absolute⟩
  | .jmpInd _ => ⟨.jmp, .indirect⟩
  | .jsr _ => ⟨.jsr, .absolute⟩
  | .rts => ⟨.rts, .implied⟩
  | .pha => ⟨.pha, .implied⟩
  | .pla => ⟨.pla, .implied⟩
  | .php => ⟨.php, .implied⟩
  | .plp => ⟨.plp, .implied⟩
  | .clc => ⟨.clc, .implied⟩
  | .sec => ⟨.sec, .implied⟩
  | .cli => ⟨.cli, .implied⟩
  | .sei => ⟨.sei, .implied⟩
  | .cld => ⟨.cld, .implied⟩
  | .sed => ⟨.sed, .implied⟩
  | .clv => ⟨.clv, .implied⟩
  | .bitZp _ => ⟨.bit, .zeroPage⟩
  | .bitAbs _ => ⟨.bit, .absolute⟩
  | .nop => ⟨.nop, .implied⟩
  | .brk => ⟨.brk, .implied⟩
  | .rti => ⟨.rti, .implied⟩

/-- How many operand bytes a mode consumes (R60, R80): "0 for Implied/Accumulator, 1 for
zero-page/immediate/relative, 2 for absolute/indirect forms"; the two page-zero indirect modes take one (R91, R92). -/
def Mode.operandBytes : Mode → Nat
  | .implied | .accumulator => 0
  | .immediate | .zeroPage | .zeroPageX | .zeroPageY | .indexedIndirect | .indirectIndexed | .relative => 1
  | .absolute | .absoluteX | .absoluteY | .indirect => 2

/-- The length of an instruction in bytes (R63): its mode's length, and 2 for BRK, whose padding byte counts (R71). -/
def Instr.length (i : Instr) : Nat :=
  match i.form.mnemonic with
  | .brk => 2
  | _ => 1 + i.form.mode.operandBytes

end Sys2Proof
end

