-- ==== Sys2Proof/WellFormed.lean ====
section
/-! DEFINITION. Which pairings of a mnemonic with an addressing mode exist (30_encoding.md R66: "An empty cell means
the mnemonic does not exist in that mode; no other pairing is defined"). Every operand field is a whole byte and no bit
of one is reserved (R61), so an operand needs no check: the types `Byte` and `Word` admit exactly the encodable
operands, and the one check is the pairing. -/

namespace Sys2Proof

/-- The modes each mnemonic has: the non-empty cells of its line in R66's table. -/
def Mnemonic.modes : Mnemonic → List Mode
  | .lda | .adc | .sbc | .and | .ora | .eor | .cmp =>
    [.immediate, .zeroPage, .zeroPageX, .absolute, .absoluteX, .absoluteY, .indexedIndirect, .indirectIndexed]
  | .ldx =>
    [.immediate, .zeroPage, .zeroPageY, .absolute, .absoluteY]
  | .ldy =>
    [.immediate, .zeroPage, .zeroPageX, .absolute, .absoluteX]
  | .sta =>
    [.zeroPage, .zeroPageX, .absolute, .absoluteX, .absoluteY, .indexedIndirect, .indirectIndexed]
  | .stx =>
    [.zeroPage, .zeroPageY, .absolute]
  | .sty =>
    [.zeroPage, .zeroPageX, .absolute]
  | .tax | .tay | .txa | .tya | .tsx | .txs | .inx | .iny | .dex | .dey
  | .rts | .pha | .pla | .php | .plp | .clc | .sec | .cli | .sei | .cld
  | .sed | .clv | .nop | .brk | .rti =>
    [.implied]
  | .inc | .dec =>
    [.zeroPage, .zeroPageX, .absolute, .absoluteX]
  | .asl | .lsr | .rol | .ror =>
    [.accumulator, .zeroPage, .zeroPageX, .absolute, .absoluteX]
  | .cpx | .cpy =>
    [.immediate, .zeroPage, .absolute]
  | .bcc | .bcs | .beq | .bne | .bmi | .bpl | .bvc | .bvs =>
    [.relative]
  | .jmp =>
    [.absolute, .indirect]
  | .jsr =>
    [.absolute]
  | .bit =>
    [.zeroPage, .absolute]

/-- The check: the pairing is one of R66's 151. -/
def Form.wellFormed (f : Form) : Bool := f.mnemonic.modes.contains f.mode

/-- An instruction is well-formed when the row it stands for is a pairing of R66. -/
def Instr.wellFormed (i : Instr) : Bool := i.form.wellFormed

end Sys2Proof
end

