-- ==== Sys2Proof/Decode.lean ====
section
/-! DEFINITION. The opcode table as data (30_encoding.md R64 to R68), the decoder over bytes and the encoder.
Opcode bytes, pairings and most base counts are the spec's own supply "from general knowledge" (log entry 7). -/

namespace Sys2Proof

/-! ## Byte order (20_memory.md R43; 00_scope.md R7) -/

/-- `hi:lo`, the word `hi * 256 + lo`. -/
def mkWord (hi lo : Byte) : Word := hi ++ lo

/-- Bits 15..8 of a word. -/
def hiByte (w : Word) : Byte := w.extractLsb' 8 8

/-- Bits 7..0 of a word. -/
def loByte (w : Word) : Byte := w.extractLsb' 0 8

/-- `zext_16` (R8): the byte as a word. -/
def zext16 (b : Byte) : Word := b.zeroExtend 16

/-- `sext_16` (R8): the byte read as a signed number, as a word. -/
def sext16 (b : Byte) : Word := b.signExtend 16

/-! ## Descriptors -/

/-- An entry of the opcode table (R64): "{opcode_byte, operation_tag, addressing_mode, base_cycles}", with the flag
`page_cross_penalty` of 40_addressing_modes.md R95. -/
structure Descriptor where
  opcode : Byte
  form : Form
  baseCycles : Nat
  pageCrossPenalty : Bool
  deriving DecidableEq, Repr

/-- The table line of an instruction, as R66 prints it: opcode byte, base cycle count, and `true` where R66 has `+`. -/
def tableLine : Instr → Byte × Nat × Bool
  | .ldaImm _ => (0xA9#8, 2, false)
  | .ldaZp _ => (0xA5#8, 3, false)
  | .ldaZpX _ => (0xB5#8, 4, false)
  | .ldaAbs _ => (0xAD#8, 4, false)
  | .ldaAbsX _ => (0xBD#8, 4, true)
  | .ldaAbsY _ => (0xB9#8, 4, true)
  | .ldaIndX _ => (0xA1#8, 6, false)
  | .ldaIndY _ => (0xB1#8, 5, true)
  | .ldxImm _ => (0xA2#8, 2, false)
  | .ldxZp _ => (0xA6#8, 3, false)
  | .ldxZpY _ => (0xB6#8, 4, false)
  | .ldxAbs _ => (0xAE#8, 4, false)
  | .ldxAbsY _ => (0xBE#8, 4, true)
  | .ldyImm _ => (0xA0#8, 2, false)
  | .ldyZp _ => (0xA4#8, 3, false)
  | .ldyZpX _ => (0xB4#8, 4, false)
  | .ldyAbs _ => (0xAC#8, 4, false)
  | .ldyAbsX _ => (0xBC#8, 4, true)
  | .staZp _ => (0x85#8, 3, false)
  | .staZpX _ => (0x95#8, 4, false)
  | .staAbs _ => (0x8D#8, 4, false)
  | .staAbsX _ => (0x9D#8, 5, false)
  | .staAbsY _ => (0x99#8, 5, false)
  | .staIndX _ => (0x81#8, 6, false)
  | .staIndY _ => (0x91#8, 6, false)
  | .stxZp _ => (0x86#8, 3, false)
  | .stxZpY _ => (0x96#8, 4, false)
  | .stxAbs _ => (0x8E#8, 4, false)
  | .styZp _ => (0x84#8, 3, false)
  | .styZpX _ => (0x94#8, 4, false)
  | .styAbs _ => (0x8C#8, 4, false)
  | .tax => (0xAA#8, 2, false)
  | .tay => (0xA8#8, 2, false)
  | .txa => (0x8A#8, 2, false)
  | .tya => (0x98#8, 2, false)
  | .tsx => (0xBA#8, 2, false)
  | .txs => (0x9A#8, 2, false)
  | .adcImm _ => (0x69#8, 2, false)
  | .adcZp _ => (0x65#8, 3, false)
  | .adcZpX _ => (0x75#8, 4, false)
  | .adcAbs _ => (0x6D#8, 4, false)
  | .adcAbsX _ => (0x7D#8, 4, true)
  | .adcAbsY _ => (0x79#8, 4, true)
  | .adcIndX _ => (0x61#8, 6, false)
  | .adcIndY _ => (0x71#8, 5, true)
  | .sbcImm _ => (0xE9#8, 2, false)
  | .sbcZp _ => (0xE5#8, 3, false)
  | .sbcZpX _ => (0xF5#8, 4, false)
  | .sbcAbs _ => (0xED#8, 4, false)
  | .sbcAbsX _ => (0xFD#8, 4, true)
  | .sbcAbsY _ => (0xF9#8, 4, true)
  | .sbcIndX _ => (0xE1#8, 6, false)
  | .sbcIndY _ => (0xF1#8, 5, true)
  | .incZp _ => (0xE6#8, 5, false)
  | .incZpX _ => (0xF6#8, 6, false)
  | .incAbs _ => (0xEE#8, 6, false)
  | .incAbsX _ => (0xFE#8, 7, false)
  | .decZp _ => (0xC6#8, 5, false)
  | .decZpX _ => (0xD6#8, 6, false)
  | .decAbs _ => (0xCE#8, 6, false)
  | .decAbsX _ => (0xDE#8, 7, false)
  | .inx => (0xE8#8, 2, false)
  | .iny => (0xC8#8, 2, false)
  | .dex => (0xCA#8, 2, false)
  | .dey => (0x88#8, 2, false)
  | .aslAcc => (0x0A#8, 2, false)
  | .aslZp _ => (0x06#8, 5, false)
  | .aslZpX _ => (0x16#8, 6, false)
  | .aslAbs _ => (0x0E#8, 6, false)
  | .aslAbsX _ => (0x1E#8, 7, false)
  | .lsrAcc => (0x4A#8, 2, false)
  | .lsrZp _ => (0x46#8, 5, false)
  | .lsrZpX _ => (0x56#8, 6, false)
  | .lsrAbs _ => (0x4E#8, 6, false)
  | .lsrAbsX _ => (0x5E#8, 7, false)
  | .rolAcc => (0x2A#8, 2, false)
  | .rolZp _ => (0x26#8, 5, false)
  | .rolZpX _ => (0x36#8, 6, false)
  | .rolAbs _ => (0x2E#8, 6, false)
  | .rolAbsX _ => (0x3E#8, 7, false)
  | .rorAcc => (0x6A#8, 2, false)
  | .rorZp _ => (0x66#8, 5, false)
  | .rorZpX _ => (0x76#8, 6, false)
  | .rorAbs _ => (0x6E#8, 6, false)
  | .rorAbsX _ => (0x7E#8, 7, false)
  | .andImm _ => (0x29#8, 2, false)
  | .andZp _ => (0x25#8, 3, false)
  | .andZpX _ => (0x35#8, 4, false)
  | .andAbs _ => (0x2D#8, 4, false)
  | .andAbsX _ => (0x3D#8, 4, true)
  | .andAbsY _ => (0x39#8, 4, true)
  | .andIndX _ => (0x21#8, 6, false)
  | .andIndY _ => (0x31#8, 5, true)
  | .oraImm _ => (0x09#8, 2, false)
  | .oraZp _ => (0x05#8, 3, false)
  | .oraZpX _ => (0x15#8, 4, false)
  | .oraAbs _ => (0x0D#8, 4, false)
  | .oraAbsX _ => (0x1D#8, 4, true)
  | .oraAbsY _ => (0x19#8, 4, true)
  | .oraIndX _ => (0x01#8, 6, false)
  | .oraIndY _ => (0x11#8, 5, true)
  | .eorImm _ => (0x49#8, 2, false)
  | .eorZp _ => (0x45#8, 3, false)
  | .eorZpX _ => (0x55#8, 4, false)
  | .eorAbs _ => (0x4D#8, 4, false)
  | .eorAbsX _ => (0x5D#8, 4, true)
  | .eorAbsY _ => (0x59#8, 4, true)
  | .eorIndX _ => (0x41#8, 6, false)
  | .eorIndY _ => (0x51#8, 5, true)
  | .cmpImm _ => (0xC9#8, 2, false)
  | .cmpZp _ => (0xC5#8, 3, false)
  | .cmpZpX _ => (0xD5#8, 4, false)
  | .cmpAbs _ => (0xCD#8, 4, false)
  | .cmpAbsX _ => (0xDD#8, 4, true)
  | .cmpAbsY _ => (0xD9#8, 4, true)
  | .cmpIndX _ => (0xC1#8, 6, false)
  | .cmpIndY _ => (0xD1#8, 5, true)
  | .cpxImm _ => (0xE0#8, 2, false)
  | .cpxZp _ => (0xE4#8, 3, false)
  | .cpxAbs _ => (0xEC#8, 4, false)
  | .cpyImm _ => (0xC0#8, 2, false)
  | .cpyZp _ => (0xC4#8, 3, false)
  | .cpyAbs _ => (0xCC#8, 4, false)
  | .bcc _ => (0x90#8, 2, false)
  | .bcs _ => (0xB0#8, 2, false)
  | .beq _ => (0xF0#8, 2, false)
  | .bne _ => (0xD0#8, 2, false)
  | .bmi _ => (0x30#8, 2, false)
  | .bpl _ => (0x10#8, 2, false)
  | .bvc _ => (0x50#8, 2, false)
  | .bvs _ => (0x70#8, 2, false)
  | .jmpAbs _ => (0x4C#8, 3, false)
  | .jmpInd _ => (0x6C#8, 5, false)
  | .jsr _ => (0x20#8, 6, false)
  | .rts => (0x60#8, 6, false)
  | .pha => (0x48#8, 3, false)
  | .pla => (0x68#8, 4, false)
  | .php => (0x08#8, 3, false)
  | .plp => (0x28#8, 4, false)
  | .clc => (0x18#8, 2, false)
  | .sec => (0x38#8, 2, false)
  | .cli => (0x58#8, 2, false)
  | .sei => (0x78#8, 2, false)
  | .cld => (0xD8#8, 2, false)
  | .sed => (0xF8#8, 2, false)
  | .clv => (0xB8#8, 2, false)
  | .bitZp _ => (0x24#8, 3, false)
  | .bitAbs _ => (0x2C#8, 4, false)
  | .nop => (0xEA#8, 2, false)
  | .brk => (0x00#8, 7, false)
  | .rti => (0x40#8, 6, false)

/-- The descriptor of an instruction (R64, R66). -/
def descriptor (i : Instr) : Descriptor :=
  let line := tableLine i
  { opcode := line.1, form := i.form, baseCycles := line.2.1, pageCrossPenalty := line.2.2 }

/-! ## The opcode map -/

/-- What the opcode byte fixes: which instruction, and how many operand bytes it is still to be given (R60, R63). -/
inductive Entry where
  | noOperand (i : Instr)
  | byteOperand (make : Byte → Instr)
  | wordOperand (make : Word → Instr)

/-- A line of the opcode map of R65: the low nibbles that are defined, each with its entry. -/
abbrev MapRow := List (Nat × Entry)

/-- Row 0x of the opcode map (R65). -/
def mapRow0 : MapRow :=
  [(0x0, .noOperand .brk), (0x1, .byteOperand .oraIndX), (0x5, .byteOperand .oraZp),
   (0x6, .byteOperand .aslZp), (0x8, .noOperand .php), (0x9, .byteOperand .oraImm),
   (0xA, .noOperand .aslAcc), (0xD, .wordOperand .oraAbs), (0xE, .wordOperand .aslAbs)]

/-- Row 1x of the opcode map (R65). -/
def mapRow1 : MapRow :=
  [(0x0, .byteOperand .bpl), (0x1, .byteOperand .oraIndY), (0x5, .byteOperand .oraZpX),
   (0x6, .byteOperand .aslZpX), (0x8, .noOperand .clc), (0x9, .wordOperand .oraAbsY),
   (0xD, .wordOperand .oraAbsX), (0xE, .wordOperand .aslAbsX)]

/-- Row 2x of the opcode map (R65). -/
def mapRow2 : MapRow :=
  [(0x0, .wordOperand .jsr), (0x1, .byteOperand .andIndX), (0x4, .byteOperand .bitZp),
   (0x5, .byteOperand .andZp), (0x6, .byteOperand .rolZp), (0x8, .noOperand .plp),
   (0x9, .byteOperand .andImm), (0xA, .noOperand .rolAcc), (0xC, .wordOperand .bitAbs),
   (0xD, .wordOperand .andAbs), (0xE, .wordOperand .rolAbs)]

/-- Row 3x of the opcode map (R65). -/
def mapRow3 : MapRow :=
  [(0x0, .byteOperand .bmi), (0x1, .byteOperand .andIndY), (0x5, .byteOperand .andZpX),
   (0x6, .byteOperand .rolZpX), (0x8, .noOperand .sec), (0x9, .wordOperand .andAbsY),
   (0xD, .wordOperand .andAbsX), (0xE, .wordOperand .rolAbsX)]

/-- Row 4x of the opcode map (R65). -/
def mapRow4 : MapRow :=
  [(0x0, .noOperand .rti), (0x1, .byteOperand .eorIndX), (0x5, .byteOperand .eorZp),
   (0x6, .byteOperand .lsrZp), (0x8, .noOperand .pha), (0x9, .byteOperand .eorImm),
   (0xA, .noOperand .lsrAcc), (0xC, .wordOperand .jmpAbs), (0xD, .wordOperand .eorAbs),
   (0xE, .wordOperand .lsrAbs)]

/-- Row 5x of the opcode map (R65). -/
def mapRow5 : MapRow :=
  [(0x0, .byteOperand .bvc), (0x1, .byteOperand .eorIndY), (0x5, .byteOperand .eorZpX),
   (0x6, .byteOperand .lsrZpX), (0x8, .noOperand .cli), (0x9, .wordOperand .eorAbsY),
   (0xD, .wordOperand .eorAbsX), (0xE, .wordOperand .lsrAbsX)]

/-- Row 6x of the opcode map (R65). -/
def mapRow6 : MapRow :=
  [(0x0, .noOperand .rts), (0x1, .byteOperand .adcIndX), (0x5, .byteOperand .adcZp),
   (0x6, .byteOperand .rorZp), (0x8, .noOperand .pla), (0x9, .byteOperand .adcImm),
   (0xA, .noOperand .rorAcc), (0xC, .wordOperand .jmpInd), (0xD, .wordOperand .adcAbs),
   (0xE, .wordOperand .rorAbs)]

/-- Row 7x of the opcode map (R65). -/
def mapRow7 : MapRow :=
  [(0x0, .byteOperand .bvs), (0x1, .byteOperand .adcIndY), (0x5, .byteOperand .adcZpX),
   (0x6, .byteOperand .rorZpX), (0x8, .noOperand .sei), (0x9, .wordOperand .adcAbsY),
   (0xD, .wordOperand .adcAbsX), (0xE, .wordOperand .rorAbsX)]

/-- Row 8x of the opcode map (R65). -/
def mapRow8 : MapRow :=
  [(0x1, .byteOperand .staIndX), (0x4, .byteOperand .styZp), (0x5, .byteOperand .staZp),
   (0x6, .byteOperand .stxZp), (0x8, .noOperand .dey), (0xA, .noOperand .txa),
   (0xC, .wordOperand .styAbs), (0xD, .wordOperand .staAbs), (0xE, .wordOperand .stxAbs)]

/-- Row 9x of the opcode map (R65). -/
def mapRow9 : MapRow :=
  [(0x0, .byteOperand .bcc), (0x1, .byteOperand .staIndY), (0x4, .byteOperand .styZpX),
   (0x5, .byteOperand .staZpX), (0x6, .byteOperand .stxZpY), (0x8, .noOperand .tya),
   (0x9, .wordOperand .staAbsY), (0xA, .noOperand .txs), (0xD, .wordOperand .staAbsX)]

/-- Row Ax of the opcode map (R65). -/
def mapRowA : MapRow :=
  [(0x0, .byteOperand .ldyImm), (0x1, .byteOperand .ldaIndX), (0x2, .byteOperand .ldxImm),
   (0x4, .byteOperand .ldyZp), (0x5, .byteOperand .ldaZp), (0x6, .byteOperand .ldxZp),
   (0x8, .noOperand .tay), (0x9, .byteOperand .ldaImm), (0xA, .noOperand .tax),
   (0xC, .wordOperand .ldyAbs), (0xD, .wordOperand .ldaAbs), (0xE, .wordOperand .ldxAbs)]

/-- Row Bx of the opcode map (R65). -/
def mapRowB : MapRow :=
  [(0x0, .byteOperand .bcs), (0x1, .byteOperand .ldaIndY), (0x4, .byteOperand .ldyZpX),
   (0x5, .byteOperand .ldaZpX), (0x6, .byteOperand .ldxZpY), (0x8, .noOperand .clv),
   (0x9, .wordOperand .ldaAbsY), (0xA, .noOperand .tsx), (0xC, .wordOperand .ldyAbsX),
   (0xD, .wordOperand .ldaAbsX), (0xE, .wordOperand .ldxAbsY)]

/-- Row Cx of the opcode map (R65). -/
def mapRowC : MapRow :=
  [(0x0, .byteOperand .cpyImm), (0x1, .byteOperand .cmpIndX), (0x4, .byteOperand .cpyZp),
   (0x5, .byteOperand .cmpZp), (0x6, .byteOperand .decZp), (0x8, .noOperand .iny),
   (0x9, .byteOperand .cmpImm), (0xA, .noOperand .dex), (0xC, .wordOperand .cpyAbs),
   (0xD, .wordOperand .cmpAbs), (0xE, .wordOperand .decAbs)]

/-- Row Dx of the opcode map (R65). -/
def mapRowD : MapRow :=
  [(0x0, .byteOperand .bne), (0x1, .byteOperand .cmpIndY), (0x5, .byteOperand .cmpZpX),
   (0x6, .byteOperand .decZpX), (0x8, .noOperand .cld), (0x9, .wordOperand .cmpAbsY),
   (0xD, .wordOperand .cmpAbsX), (0xE, .wordOperand .decAbsX)]

/-- Row Ex of the opcode map (R65). -/
def mapRowE : MapRow :=
  [(0x0, .byteOperand .cpxImm), (0x1, .byteOperand .sbcIndX), (0x4, .byteOperand .cpxZp),
   (0x5, .byteOperand .sbcZp), (0x6, .byteOperand .incZp), (0x8, .noOperand .inx),
   (0x9, .byteOperand .sbcImm), (0xA, .noOperand .nop), (0xC, .wordOperand .cpxAbs),
   (0xD, .wordOperand .sbcAbs), (0xE, .wordOperand .incAbs)]

/-- Row Fx of the opcode map (R65). -/
def mapRowF : MapRow :=
  [(0x0, .byteOperand .beq), (0x1, .byteOperand .sbcIndY), (0x5, .byteOperand .sbcZpX),
   (0x6, .byteOperand .incZpX), (0x8, .noOperand .sed), (0x9, .wordOperand .sbcAbsY),
   (0xD, .wordOperand .sbcAbsX), (0xE, .wordOperand .incAbsX)]

/-- The opcode map (R65): one row for each high nibble. -/
def opcodeMap : List MapRow :=
  [mapRow0, mapRow1, mapRow2, mapRow3, mapRow4, mapRow5, mapRow6, mapRow7] ++
  [mapRow8, mapRow9, mapRowA, mapRowB, mapRowC, mapRowD, mapRowE, mapRowF]

/-- `lookup(opcode_byte)` (R64): the entry of the opcode byte, `none` for the 105 undefined bytes (R68). -/
def lookupOpcode (opcode : Byte) : Option Entry :=
  (opcodeMap.getD (opcode.toNat / 16) []).lookup (opcode.toNat % 16)

/-! ## Decoder -/

/-- Why bytes do not decode. -/
inductive DecodeError where
  /-- There is no opcode byte. Only a caller that gives an empty list meets it; the core's memory never ends. Safe. -/
  | noOpcode
  /-- The opcode byte is one of the 105 undefined ones (R68). Raised by the fetch as `IllegalOpcode`. Safe. -/
  | undefinedOpcode (opcode : Byte)
  /-- The list ends before the operand bytes do (log entry 19). The core never meets it. Safe. -/
  | truncated (opcode : Byte)
  deriving DecidableEq, Repr

/-- Decode the instruction at the head of a list of bytes: one table lookup on the first byte, then the operand bytes,
little-endian (R60 to R64). BRK needs its opcode byte only (R71). -/
def decode : List Byte → Except DecodeError Instr
  | [] => .error .noOpcode
  | opcode :: rest =>
    match lookupOpcode opcode, rest with
    | none, _ => .error (.undefinedOpcode opcode)
    | some (.noOperand i), _ => .ok i
    | some (.byteOperand make), b0 :: _ => .ok (make b0)
    | some (.wordOperand make), b0 :: b1 :: _ => .ok (make (mkWord b1 b0))
    | some (.byteOperand _), [] => .error (.truncated opcode)
    | some (.wordOperand _), [] => .error (.truncated opcode)
    | some (.wordOperand _), [_] => .error (.truncated opcode)

/-- The instruction this decoder reads from bits numbered as spec/opcode_table.json numbers them: the first byte is
bits 7..0, the second bits 15..8, the third bits 23..16; bits from `nbits` up are 0. -/
def decodeTableWord (nbits w : Nat) : Option Instr :=
  let bits := w % 2 ^ nbits
  (decode [BitVec.ofNat 8 bits, BitVec.ofNat 8 (bits / 256), BitVec.ofNat 8 (bits / 65536)]).toOption

/-! ## Encoder -/

/-- The operand bytes of an instruction, in ascending address order (R61). -/
def operandBytes : Instr → List Byte
  | .ldaImm v | .ldaZp v | .ldaZpX v | .ldaIndX v | .ldaIndY v | .ldxImm v
  | .ldxZp v | .ldxZpY v | .ldyImm v | .ldyZp v | .ldyZpX v | .staZp v
  | .staZpX v | .staIndX v | .staIndY v | .stxZp v | .stxZpY v | .styZp v
  | .styZpX v | .adcImm v | .adcZp v | .adcZpX v | .adcIndX v | .adcIndY v
  | .sbcImm v | .sbcZp v | .sbcZpX v | .sbcIndX v | .sbcIndY v | .incZp v
  | .incZpX v | .decZp v | .decZpX v | .aslZp v | .aslZpX v | .lsrZp v
  | .lsrZpX v | .rolZp v | .rolZpX v | .rorZp v | .rorZpX v | .andImm v
  | .andZp v | .andZpX v | .andIndX v | .andIndY v | .oraImm v | .oraZp v
  | .oraZpX v | .oraIndX v | .oraIndY v | .eorImm v | .eorZp v | .eorZpX v
  | .eorIndX v | .eorIndY v | .cmpImm v | .cmpZp v | .cmpZpX v | .cmpIndX v
  | .cmpIndY v | .cpxImm v | .cpxZp v | .cpyImm v | .cpyZp v | .bcc v
  | .bcs v | .beq v | .bne v | .bmi v | .bpl v | .bvc v
  | .bvs v | .bitZp v => [v]
  | .ldaAbs v | .ldaAbsX v | .ldaAbsY v | .ldxAbs v | .ldxAbsY v | .ldyAbs v
  | .ldyAbsX v | .staAbs v | .staAbsX v | .staAbsY v | .stxAbs v | .styAbs v
  | .adcAbs v | .adcAbsX v | .adcAbsY v | .sbcAbs v | .sbcAbsX v | .sbcAbsY v
  | .incAbs v | .incAbsX v | .decAbs v | .decAbsX v | .aslAbs v | .aslAbsX v
  | .lsrAbs v | .lsrAbsX v | .rolAbs v | .rolAbsX v | .rorAbs v | .rorAbsX v
  | .andAbs v | .andAbsX v | .andAbsY v | .oraAbs v | .oraAbsX v | .oraAbsY v
  | .eorAbs v | .eorAbsX v | .eorAbsY v | .cmpAbs v | .cmpAbsX v | .cmpAbsY v
  | .cpxAbs v | .cpyAbs v | .jmpAbs v | .jmpInd v | .jsr v | .bitAbs v => [loByte v, hiByte v]
  | .tax | .tay | .txa | .tya | .tsx | .txs
  | .inx | .iny | .dex | .dey | .aslAcc | .lsrAcc
  | .rolAcc | .rorAcc | .rts | .pha | .pla | .php
  | .plp | .clc | .sec | .cli | .sei | .cld
  | .sed | .clv | .nop | .brk | .rti => []

/-- The bytes the core fetches to run an instruction: the opcode byte and the operand bytes its mode consumes (R56). -/
def fetchedBytes (i : Instr) : List Byte := (descriptor i).opcode :: operandBytes i

/-- The bytes of an instruction in memory (R61), opcode first. BRK's second byte may hold any value (R71);
DESIGN CHOICE (log entry 11): the encoder writes 0x00. -/
def encode (i : Instr) : List Byte :=
  match i.form.mnemonic with
  | .brk => fetchedBytes i ++ [0x00#8]
  | _ => fetchedBytes i

end Sys2Proof
end

