-- ==== Sys2Proof/Config.lean ====
section
/-! DEFINITION. What the embedder fixes (00_scope.md R6, the rows marked OPEN). The spec leaves no result of an
instruction open, so no free value stands here. The third open parameter, the halt predicate, is an argument of
Machine/Run.lean's `runUntil`. -/

namespace Sys2Proof.Config

/-- `ENTRY_PC`, the address the embedder puts in PC at reset (R240). OPEN in the spec.
DESIGN CHOICE (log entry 2), unsafe: `State.reset` takes 0x0000, the register file's own default (R35).
`State.resetWith` takes any address. -/
def entryPc : Word := 0x0000#16

end Sys2Proof.Config
end

