-- ==== Sys2Proof/Machine/State.lean ====
section
/-! DEFINITION. The state of the machine as plain data (10_state.md R20), the ways a step can stop, and reset. -/

namespace Sys2Proof.Machine

/-- The run status (10_state.md R34). -/
inductive RunStatus where
  /-- `Running`: a step is enabled. -/
  | running
  /-- `Halted`: the halt predicate answered true after a completed instruction (R246). -/
  | halted
  /-- `Faulted(opcode, addr)`: the undefined byte that was fetched as an opcode, and from where (R211). -/
  | faulted (opcode : Byte) (addr : Word)
  deriving DecidableEq, Repr

/-- One transaction at the memory port: always one byte (20_memory.md R41, R46). -/
inductive Transaction where
  /-- `MemRead(addr, 1)`, which answered `val`. -/
  | read (addr : Word) (val : Byte)
  /-- `MemWrite(addr, 1, val)`. -/
  | write (addr : Word) (val : Byte)
  deriving DecidableEq, Repr

/-- The 65536 bytes behind the port (R40), as a list of cells in the canonical form of Ops.lean's `Memory.wf`.
Every function from addresses to bytes has exactly one such list (log entry 1). -/
abbrev Memory := List Host.Cell

/-- The state (R20) with the memory behind the port. `trace` and `history` are the model's own (log entry 4): the port's
transactions, which are part of each instruction's specification (20_memory.md R47, R48) and which the halt predicate
may read (70_reset_and_hazards.md R247); no rule's effect depends on them. -/
structure State where
  /-- `A`, the accumulator (R21). -/
  a : Byte
  /-- `X`, index register (R22). -/
  x : Byte
  /-- `Y`, index register (R22). -/
  y : Byte
  /-- `SP`, the stack pointer (R23). -/
  sp : Byte
  /-- `PC`, the program counter (R24). -/
  pc : Word
  /-- `C`, carry (R25). -/
  c : Bool
  /-- `Z`, zero. -/
  z : Bool
  /-- `I`, interrupt-disable; it masks nothing (60_exceptions.md R226). -/
  i : Bool
  /-- `D`, decimal mode. -/
  d : Bool
  /-- `B`, break: a stored flag in this core (R30). -/
  b : Bool
  /-- `V`, overflow. -/
  v : Bool
  /-- `N`, negative. -/
  n : Bool
  /-- `CYC`, the cycle counter: unbounded, read by no instruction (R33). -/
  cyc : Nat
  /-- `RUN`, the run status (R34). -/
  run : RunStatus
  /-- The memory behind the port (R40, R51). -/
  mem : Memory
  /-- The transactions of the step in progress, or of the latest step when none is: oldest first. -/
  trace : List Transaction
  /-- The transactions of all steps before that one since reset: oldest first. -/
  history : List Transaction
  deriving DecidableEq, Repr

/-- How a step stops with a fault. -/
inductive Fault where
  /-- `IllegalOpcode(opcode, addr)`, the one fault (60_exceptions.md R211): `fetchInstr` raises it for the 105 undefined
  bytes (30_encoding.md R68). `final` is the state the fault leaves for inspection, with `RUN = Faulted(opcode, addr)`
  and PC past the byte. The spec's own stop, hence safe (log entry 5). -/
  | illegalOpcode (opcode : Byte) (addr : Word) (final : State)
  deriving DecidableEq, Repr

/-- How a step is refused. -/
inductive Refusal where
  /-- `exec` has no meaning for the instruction yet. Safe. Raised by Dispatch.lean's refused arms only; none is left. -/
  | notModelled (mnemonic : String)
  /-- `step` was asked for while `RUN` is not `Running`: "`Step` is enabled only in `Running`" (10_state.md R34).
  Raised by `step`. Safe (log entry 6). -/
  | notRunning (status : RunStatus)
  deriving DecidableEq, Repr

/-- What a meaning answers. -/
abbrev Result := Host.Outcome State Fault Refusal

/-- The state `Reset()` leaves, from the entry address and the memory the embedder supplies
(70_reset_and_hazards.md R240, R242; 10_state.md R35). Reset issues no transaction and costs no cycle. -/
def State.resetWith (entry : Word) (mem0 : Memory) : State where
  a := 0x00#8
  x := 0x00#8
  y := 0x00#8
  sp := 0xFD#8
  pc := entry
  c := false
  z := false
  i := true
  d := false
  b := false
  v := false
  n := false
  cyc := 0
  run := .running
  mem := mem0
  trace := []
  history := []

/-- The machine right after reset with the two open parameters at the model's values: `ENTRY_PC` from Config (log
entry 2) and memory with nothing listed (log entry 1). -/
def State.reset : State := State.resetWith Config.entryPc []

end Sys2Proof.Machine
end

