-- ==== Sys2Proof/Machine/Flags.lean ====
section
/-! DEFINITION. Every flag computation of the spec: the status byte (10_state.md R27, R28), N and Z from a result
(R29), the adders of 42_arithmetic.md, the shifts of 44_shift_rotate.md and the compare of 45_logic_compare.md. -/

namespace Sys2Proof.Machine

/-! ## The status byte -/

/-- `StatusByte()` (R27): N V 1 B D I Z C from bit 7 down. -/
def statusByte (s : State) : Byte :=
  BitVec.ofNat 8 (s.n.toNat * 128 + s.v.toNat * 64 + 1 * 32 + s.b.toNat * 16
    + s.d.toNat * 8 + s.i.toNat * 4 + s.z.toNat * 2 + s.c.toNat * 1)

/-- `SetStatus(p)` (R28): all seven flags from a byte, `B` among them; bit 5 is ignored (R30). -/
def setStatus (p : Byte) (s : State) : State :=
  { s with
    n := p.getLsbD 7, v := p.getLsbD 6, b := p.getLsbD 4, d := p.getLsbD 3,
    i := p.getLsbD 2, z := p.getLsbD 1, c := p.getLsbD 0 }

/-- `SetNZ(v)` (R29): N is bit 7 of the byte, Z says whether it is zero; nothing else changes. -/
def setNZ (r : Byte) (s : State) : State :=
  { s with n := r.getLsbD 7, z := r == 0x00#8 }

/-! ## The adder (42_arithmetic.md) -/

/-- What an addition gives: the byte, the carry out and the signed overflow. -/
structure Sum where
  r : Byte
  carry : Bool
  overflow : Bool
  deriving DecidableEq, Repr

/-- `AddBinary(a, m, c)` (R120): unsigned sum cut to 8 bits, carry out of bit 7, and the overflow formula over the
sign bits of the two addends and the result. -/
def addBinary (a m : Byte) (c : Bool) : Sum :=
  let s := a.toNat + m.toNat + c.toNat
  let r := BitVec.ofNat 8 s
  { r := r
    carry := decide (256 ≤ s)
    overflow := (a.getLsbD 7 == m.getLsbD 7) && (r.getLsbD 7 != a.getLsbD 7) }

/-- Bits 3..0 of a byte: the units digit of a packed BCD byte. -/
def lowNibble (b : Byte) : Nat := b.toNat % 16

/-- Bits 7..4 of a byte: the tens digit of a packed BCD byte. -/
def highNibble (b : Byte) : Nat := b.toNat / 16

/-- `AddDecimal(a, m, c)` (R121): the packed-BCD adder digit by digit, byte and carry out. For nibbles above 9 it
gives what the rule's pseudocode gives (log entry 8). -/
def addDecimal (a m : Byte) (c : Bool) : Byte × Bool :=
  let al0 := lowNibble a + lowNibble m + c.toNat
  let al := if 10 ≤ al0 then (al0 + 6) % 16 + 16 else al0
  let t0 := highNibble a * 16 + highNibble m * 16 + al
  let t := if 0xA0 ≤ t0 then t0 + 0x60 else t0
  (BitVec.ofNat 8 t, decide (0x100 ≤ t))

/-- `SubDecimal(a, m, c)` (R122): the packed-BCD subtractor, over signed intermediate values; `c` is "no borrow in". -/
def subDecimal (a m : Byte) (c : Bool) : Byte :=
  let al0 : Int := (lowNibble a : Int) - (lowNibble m : Int) + (c.toNat : Int) - 1
  let al : Int := if al0 < 0 then (al0 - 6) % 16 - 16 else al0
  let t0 : Int := (highNibble a : Int) * 16 - (highNibble m : Int) * 16 + al
  let t : Int := if t0 < 0 then t0 - 0x60 else t0
  BitVec.ofInt 8 t

/-! ## Shifts and rotates (44_shift_rotate.md): the result byte and the bit that leaves it -/

/-- ASL (R141): one bit to the left, 0 enters at bit 0. -/
def shiftLeft (m : Byte) : Byte × Bool := (m <<< 1, m.getLsbD 7)

/-- LSR (R142): one bit to the right, 0 enters at bit 7. -/
def shiftRight (m : Byte) : Byte × Bool := (m >>> 1, m.getLsbD 0)

/-- ROL (R143): one bit to the left, the carry enters at bit 0. -/
def rotateLeft (cin : Bool) (m : Byte) : Byte × Bool :=
  ((m <<< 1) + BitVec.ofNat 8 cin.toNat, m.getLsbD 7)

/-- ROR (R144): one bit to the right, the carry enters at bit 7. -/
def rotateRight (cin : Bool) (m : Byte) : Byte × Bool :=
  ((m >>> 1) + BitVec.ofNat 8 (cin.toNat * 128), m.getLsbD 0)

/-! ## Compare -/

/-- `Compare(r, m)` (45_logic_compare.md R153): C says `r >= m` unsigned, N and Z describe `(r - m) mod 256`; V and the
register stay, and neither C nor D is an input. -/
def compareBytes (r m : Byte) (s : State) : State :=
  setNZ (r - m) { s with c := decide (m.toNat ≤ r.toNat) }

end Sys2Proof.Machine
end

