-- ==== Sys2Proof/Machine/Ops.lean ====
section
/-! DEFINITION. The named operations over memory and registers: the memory behind the port and its canonical form, the
port's transactions, the stack, the cycle counter, taking the BRK trap and returning from it, and the one fault. -/

namespace Sys2Proof.Machine

/-! ## Memory (20_memory.md R40, R51; log entry 1) -/

/-- What an unlisted address reads as. DESIGN CHOICE (log entry 1): 0x00. It is how a memory is written down, not a claim
about `MEM0`: the list may give any address any byte. -/
def Memory.unlisted : Byte := 0x00#8

/-- The byte at an address: the listed one, or `Memory.unlisted`. -/
def Memory.readAt (a : Nat) : Memory → Byte
  | [] => Memory.unlisted
  | (k, w) :: rest => if a = k then w else Memory.readAt a rest

/-- Take every cell of an address out of the list. -/
def Memory.eraseAt (a : Nat) : Memory → Memory
  | [] => []
  | (k, w) :: rest => if k = a then Memory.eraseAt a rest else (k, w) :: Memory.eraseAt a rest

/-- Put a cell before the first one of a higher address. -/
def Memory.insertAt (a : Nat) (val : Byte) : Memory → Memory
  | [] => [(a, val)]
  | (k, w) :: rest => if a < k then (a, val) :: (k, w) :: rest else (k, w) :: Memory.insertAt a val rest

/-- Put a byte at an address: the address's cell goes, and a new one comes in its place in the order unless the byte is
`Memory.unlisted`. -/
def Memory.writeAt (a : Nat) (val : Byte) (m : Memory) : Memory :=
  if val = Memory.unlisted then Memory.eraseAt a m else Memory.insertAt a val (Memory.eraseAt a m)

/-- The byte the port answers for a 16-bit address. -/
def Memory.read (m : Memory) (addr : Word) : Byte := Memory.readAt addr.toNat m

/-- The memory after the port accepts a byte for a 16-bit address. -/
def Memory.write (m : Memory) (addr : Word) (val : Byte) : Memory := Memory.writeAt addr.toNat val m

/-- Every cell of the list is at or above `lo`, inside the address space, in strictly rising order, and none holds
the byte an unlisted address reads as. -/
def Memory.wfFrom (lo : Nat) : Memory → Bool
  | [] => true
  | (k, w) :: rest => decide (lo ≤ k) && decide (k < 65536) && (w != Memory.unlisted) && Memory.wfFrom (k + 1) rest

/-- The canonical form: equal memories are equal lists (Laws/Memory.lean proves it). -/
def Memory.wf (m : Memory) : Bool := Memory.wfFrom 0 m

/-! ## The memory port (R41, R46, R48) -/

/-- Record a transaction as the latest of this step. -/
def record (t : Transaction) (s : State) : State := { s with trace := s.trace ++ [t] }

/-- `MemRead(addr, 1)`: the byte at the address, and the state with the transaction recorded. The port is total (R42). -/
def memRead (addr : Word) (s : State) : Byte × State :=
  let val := s.mem.read addr
  (val, record (.read addr val) s)

/-- `MemWrite(addr, 1, val)`. -/
def memWrite (addr : Word) (val : Byte) (s : State) : State :=
  record (.write addr val) { s with mem := s.mem.write addr val }

/-- `Fetch8()` (30_encoding.md R69): the byte at PC, PC advanced by one modulo 65536. -/
def fetch8 (s : State) : Byte × State :=
  let r := memRead s.pc s
  (r.1, { r.2 with pc := s.pc + 1#16 })

/-! ## The stack (48_stack_flag.md) -/

/-- The stack address `0x0100 + SP` (10_state.md R23). -/
def stackAddr (sp : Byte) : Word := 0x0100#16 + zext16 sp

/-- `Push(v)` (R180): write at the stack address, then SP goes down by one modulo 256. -/
def push (val : Byte) (s : State) : State :=
  let s1 := memWrite (stackAddr s.sp) val s
  { s1 with sp := s.sp - 1#8 }

/-- `Pull()` (R181): SP goes up by one modulo 256, then the byte at the stack address is read. -/
def pull (s : State) : Byte × State :=
  let s1 := { s with sp := s.sp + 1#8 }
  memRead (stackAddr s1.sp) s1

/-! ## Cycles (10_state.md R33) -/

/-- Add to CYC what a completed instruction costs. -/
def addCycles (k : Nat) (s : State) : State := { s with cyc := s.cyc + k }

/-! ## The BRK trap and its return (60_exceptions.md R215, R217) -/

/-- Where the low byte of the BRK vector lies (R215). -/
def brkVectorLow : Word := 0xFFFE#16

/-- Where the high byte of the BRK vector lies (R215). -/
def brkVectorHigh : Word := 0xFFFF#16

/-- Taking the BRK trap, in the order of 49_bit_nop_brk_rti.md R202: PC skips the padding byte, its high and low bytes are
pushed, B is set, the status byte is pushed (holding the old I), I is set, PC is loaded from the vector. -/
def enterBrk (s : State) : State :=
  let s1 := { s with pc := s.pc + 1#16 }
  let s2 := push (hiByte s1.pc) s1
  let s3 := push (loByte s1.pc) s2
  let s4 := { s3 with b := true }
  let s5 := push (statusByte s4) s4
  let s6 := { s5 with i := true }
  let lo := memRead brkVectorLow s6
  let hi := memRead brkVectorHigh lo.2
  { hi.2 with pc := mkWord hi.1 lo.1 }

/-- Returning from the trap (R203, R217): the status byte, then PC's low byte, then its high byte are pulled; nothing is
added to the address. -/
def returnFromBrk (s : State) : State :=
  let p := pull s
  let lo := pull (setStatus p.1 p.2)
  let hi := pull lo.2
  { hi.2 with pc := mkWord hi.1 lo.1 }

/-! ## The fault (60_exceptions.md R211) -/

/-- `raise IllegalOpcode(opcode, addr)` from the state the opcode fetch left: RUN becomes `Faulted(opcode, addr)` and
nothing else changes. -/
def raiseIllegalOpcode (opcode : Byte) (addr : Word) (s : State) : Fault :=
  .illegalOpcode opcode addr { s with run := .faulted opcode addr }

end Sys2Proof.Machine
end

