-- ==== Sys2Proof/Machine/Operands.lean ====
section
/-! DEFINITION. The addressing-mode resolver (40_addressing_modes.md): effective addresses, page crosses, and reading and
writing the operand. The operand bytes themselves were fetched with the instruction (Fetch.lean; log entry 12), so PC is
past them here. -/

namespace Sys2Proof.Machine

/-- The modes whose operand is a memory address, each with its assembled operand bytes. -/
inductive MemMode where
  | zeroPage (zp : Byte)
  | zeroPageX (zp : Byte)
  | zeroPageY (zp : Byte)
  | absolute (addr : Word)
  | absoluteX (addr : Word)
  | absoluteY (addr : Word)
  | indirect (ptr : Word)
  | indexedIndirect (zp : Byte)
  | indirectIndexed (zp : Byte)
  deriving DecidableEq, Repr

/-- A resolved address (R80's `Addr` and `Target`): the effective address, and whether computing it crossed a page. -/
structure Address where
  ea : Word
  crossed : Bool
  deriving DecidableEq, Repr

/-- A page cross (R94): the computation changed the high byte. -/
def pageCrossed (old new : Word) : Bool := hiByte new != hiByte old

/-- `base + index` as a 16-bit addition, with its page cross (R88, R89, R92). -/
def indexed (base : Word) (index : Byte) : Address :=
  let ea := base + zext16 index
  ⟨ea, pageCrossed base ea⟩

/-- `Resolve(mode)` for the memory modes (R84 to R92): the address, and the state with the pointer reads recorded. -/
def resolve : MemMode → State → Address × State
  | .zeroPage zp, s => (⟨zext16 zp, false⟩, s)
  | .zeroPageX zp, s => (⟨zext16 (zp + s.x), false⟩, s)
  | .zeroPageY zp, s => (⟨zext16 (zp + s.y), false⟩, s)
  | .absolute addr, s => (⟨addr, false⟩, s)
  | .absoluteX addr, s => (indexed addr s.x, s)
  | .absoluteY addr, s => (indexed addr s.y, s)
  | .indirect ptr, s =>
    let lo := memRead ptr s
    let hi := memRead (mkWord (hiByte ptr) (loByte ptr + 1#8)) lo.2
    (⟨mkWord hi.1 lo.1, false⟩, hi.2)
  | .indexedIndirect zp, s =>
    let p := zp + s.x
    let lo := memRead (zext16 p) s
    let hi := memRead (zext16 (p + 1#8)) lo.2
    (⟨mkWord hi.1 lo.1, false⟩, hi.2)
  | .indirectIndexed zp, s =>
    let lo := memRead (zext16 zp) s
    let hi := memRead (zext16 (zp + 1#8)) lo.2
    (indexed (mkWord hi.1 lo.1) s.y, hi.2)

/-- `Resolve(Relative)` (R93): the target is PC, which is past the displacement byte, plus the signed displacement; the
page cross compares the high bytes of the two. -/
def relativeTarget (disp : Byte) (s : State) : Address :=
  let t := s.pc + sext16 disp
  ⟨t, pageCrossed s.pc t⟩

/-- An operand that holds a byte (R80's `Imm`, `Acc` and `Addr`). -/
inductive Operand where
  | imm (val : Byte)
  | acc
  | addr (p : Address)
  deriving DecidableEq, Repr

/-- An operand that can be stored to (R96: "No instruction stores to an Immediate operand"). -/
inductive Place where
  | acc
  | addr (p : Address)
  deriving DecidableEq, Repr

/-- A place as an operand. -/
def placeOperand : Place → Operand
  | .acc => .acc
  | .addr p => .addr p

/-- `LoadOperand(op)` (R96). -/
def loadOperand : Operand → State → Byte × State
  | .imm val, s => (val, s)
  | .acc, s => (s.a, s)
  | .addr p, s => memRead p.ea s

/-- `StoreOperand(op, v)` (R96). -/
def storeOperand : Place → Byte → State → State
  | .acc, val, s => { s with a := val }
  | .addr p, val, s => memWrite p.ea val s

/-- `ExtraForOperand(d, op)` (R95): one more cycle if the opcode has the penalty and the address crossed a page. -/
def extraForOperand (k : Descriptor) : Operand → Nat
  | .addr p => if k.pageCrossPenalty && p.crossed then 1 else 0
  | .imm _ | .acc => 0

/-- End of a completed instruction (R70): `CYC <- CYC + d.base_cycles + extra`. -/
def complete (k : Descriptor) (extra : Nat) (s : State) : State := addCycles (k.baseCycles + extra) s

/-! How a meaning gets its resolved operand: `Resolve`, then the instruction's rule (30_encoding.md R70). -/

/-- Resolve a memory mode and hand the address to a rule that takes an operand. -/
def onOperand (mode : MemMode) (rule : Operand → State → State) (s : State) : State :=
  let r := resolve mode s
  rule (.addr r.1) r.2

/-- Resolve a memory mode and hand the address to a rule that reads and writes a place. -/
def onPlace (mode : MemMode) (rule : Place → State → State) (s : State) : State :=
  let r := resolve mode s
  rule (.addr r.1) r.2

/-- Resolve a memory mode and hand the address to a rule that takes an address. -/
def onAddress (mode : MemMode) (rule : Address → State → State) (s : State) : State :=
  let r := resolve mode s
  rule r.1 r.2

end Sys2Proof.Machine
end

