-- ==== Sys2Proof/Machine/Arithmetic.lean ====
section
/-! DEFINITION. The meanings of ADC and SBC, binary and decimal (42_arithmetic.md R120 to R126). -/

namespace Sys2Proof.Machine

/-- ADC (R123): with D = 0 the byte and C are the binary sum's, with D = 1 the decimal sum's; V is the binary sum's in
both modes; N and Z describe the byte left in A. -/
def adc (k : Descriptor) (op : Operand) (s : State) : State :=
  let m := loadOperand op s
  let bin := addBinary s.a m.1 s.c
  let dec := addDecimal s.a m.1 s.c
  let r := if s.d then dec.1 else bin.r
  let cout := if s.d then dec.2 else bin.carry
  complete k (extraForOperand k op) (setNZ r { m.2 with a := r, c := cout, v := bin.overflow })

/-- ADC Immediate (R123, R83; opcode 0x69). -/
def execAdcImm (imm : Byte) (s : State) : Result :=
  .next (adc (descriptor (.adcImm imm)) (.imm imm) s)

/-- ADC ZeroPage (R123, R84; opcode 0x65). -/
def execAdcZp (zp : Byte) (s : State) : Result :=
  .next (onOperand (.zeroPage zp) (adc (descriptor (.adcZp zp))) s)

/-- ADC ZeroPageX (R123, R85; opcode 0x75). -/
def execAdcZpX (zp : Byte) (s : State) : Result :=
  .next (onOperand (.zeroPageX zp) (adc (descriptor (.adcZpX zp))) s)

/-- ADC Absolute (R123, R87; opcode 0x6D). -/
def execAdcAbs (addr : Word) (s : State) : Result :=
  .next (onOperand (.absolute addr) (adc (descriptor (.adcAbs addr))) s)

/-- ADC AbsoluteX (R123, R88; opcode 0x7D). -/
def execAdcAbsX (addr : Word) (s : State) : Result :=
  .next (onOperand (.absoluteX addr) (adc (descriptor (.adcAbsX addr))) s)

/-- ADC AbsoluteY (R123, R89; opcode 0x79). -/
def execAdcAbsY (addr : Word) (s : State) : Result :=
  .next (onOperand (.absoluteY addr) (adc (descriptor (.adcAbsY addr))) s)

/-- ADC IndexedIndirect (R123, R91; opcode 0x61). -/
def execAdcIndX (zp : Byte) (s : State) : Result :=
  .next (onOperand (.indexedIndirect zp) (adc (descriptor (.adcIndX zp))) s)

/-- ADC IndirectIndexed (R123, R92; opcode 0x71). -/
def execAdcIndY (zp : Byte) (s : State) : Result :=
  .next (onOperand (.indirectIndexed zp) (adc (descriptor (.adcIndY zp))) s)

/-- SBC (R124): the binary difference is `AddBinary(A, m ^ 0xFF, C)`, C meaning "no borrow"; with D = 1 the byte is the
decimal difference while C and V are still the binary ones; N and Z describe the byte left in A. -/
def sbc (k : Descriptor) (op : Operand) (s : State) : State :=
  let m := loadOperand op s
  let bin := addBinary s.a (m.1 ^^^ 0xFF#8) s.c
  let r := if s.d then subDecimal s.a m.1 s.c else bin.r
  complete k (extraForOperand k op) (setNZ r { m.2 with a := r, c := bin.carry, v := bin.overflow })

/-- SBC Immediate (R124, R83; opcode 0xE9). -/
def execSbcImm (imm : Byte) (s : State) : Result :=
  .next (sbc (descriptor (.sbcImm imm)) (.imm imm) s)

/-- SBC ZeroPage (R124, R84; opcode 0xE5). -/
def execSbcZp (zp : Byte) (s : State) : Result :=
  .next (onOperand (.zeroPage zp) (sbc (descriptor (.sbcZp zp))) s)

/-- SBC ZeroPageX (R124, R85; opcode 0xF5). -/
def execSbcZpX (zp : Byte) (s : State) : Result :=
  .next (onOperand (.zeroPageX zp) (sbc (descriptor (.sbcZpX zp))) s)

/-- SBC Absolute (R124, R87; opcode 0xED). -/
def execSbcAbs (addr : Word) (s : State) : Result :=
  .next (onOperand (.absolute addr) (sbc (descriptor (.sbcAbs addr))) s)

/-- SBC AbsoluteX (R124, R88; opcode 0xFD). -/
def execSbcAbsX (addr : Word) (s : State) : Result :=
  .next (onOperand (.absoluteX addr) (sbc (descriptor (.sbcAbsX addr))) s)

/-- SBC AbsoluteY (R124, R89; opcode 0xF9). -/
def execSbcAbsY (addr : Word) (s : State) : Result :=
  .next (onOperand (.absoluteY addr) (sbc (descriptor (.sbcAbsY addr))) s)

/-- SBC IndexedIndirect (R124, R91; opcode 0xE1). -/
def execSbcIndX (zp : Byte) (s : State) : Result :=
  .next (onOperand (.indexedIndirect zp) (sbc (descriptor (.sbcIndX zp))) s)

/-- SBC IndirectIndexed (R124, R92; opcode 0xF1). -/
def execSbcIndY (zp : Byte) (s : State) : Result :=
  .next (onOperand (.indirectIndexed zp) (sbc (descriptor (.sbcIndY zp))) s)

end Sys2Proof.Machine
end

