-- ==== Sys2Proof/Machine/Branch.lean ====
section
/-! DEFINITION. The meanings of the conditional branches (46_branch.md R160 to R168). -/

namespace Sys2Proof.Machine

/-- `Branch(cond, op)` (R160): when the condition holds PC becomes the target, for one more cycle and one more again if the
target lies in another page; otherwise PC stays past the displacement. -/
def branch (cond : Bool) (k : Descriptor) (disp : Byte) (s : State) : State :=
  let t := relativeTarget disp s
  if cond then complete k (1 + if t.crossed then 1 else 0) { s with pc := t.ea } else complete k 0 s

/-- BCC (R161; opcode 0x90): taken when C = 0. -/
def execBcc (disp : Byte) (s : State) : Result :=
  .next (branch (!s.c) (descriptor (.bcc disp)) disp s)

/-- BCS (R162; opcode 0xB0): taken when C = 1. -/
def execBcs (disp : Byte) (s : State) : Result :=
  .next (branch s.c (descriptor (.bcs disp)) disp s)

/-- BEQ (R163; opcode 0xF0): taken when Z = 1. -/
def execBeq (disp : Byte) (s : State) : Result :=
  .next (branch s.z (descriptor (.beq disp)) disp s)

/-- BNE (R164; opcode 0xD0): taken when Z = 0. -/
def execBne (disp : Byte) (s : State) : Result :=
  .next (branch (!s.z) (descriptor (.bne disp)) disp s)

/-- BMI (R165; opcode 0x30): taken when N = 1. -/
def execBmi (disp : Byte) (s : State) : Result :=
  .next (branch s.n (descriptor (.bmi disp)) disp s)

/-- BPL (R166; opcode 0x10): taken when N = 0. -/
def execBpl (disp : Byte) (s : State) : Result :=
  .next (branch (!s.n) (descriptor (.bpl disp)) disp s)

/-- BVC (R167; opcode 0x50): taken when V = 0. -/
def execBvc (disp : Byte) (s : State) : Result :=
  .next (branch (!s.v) (descriptor (.bvc disp)) disp s)

/-- BVS (R168; opcode 0x70): taken when V = 1. -/
def execBvs (disp : Byte) (s : State) : Result :=
  .next (branch s.v (descriptor (.bvs disp)) disp s)

end Sys2Proof.Machine
end

