-- ==== Sys2Proof/Machine/IncDec.lean ====
section
/-! DEFINITION. The meanings of the increment and decrement instructions (43_incdec.md R130 to R135). -/

namespace Sys2Proof.Machine

/-- What INC and DEC share (R130, R131): read the byte, change it, write it back to the same address; N and Z describe the
new byte, C and V stay, no page-cross cycle. -/
def changeMemory (f : Byte → Byte) (k : Descriptor) (pl : Place) (s : State) : State :=
  let m := loadOperand (placeOperand pl) s
  complete k 0 (setNZ (f m.1) (storeOperand pl (f m.1) m.2))

/-- INC (R130): plus one modulo 256. -/
def inc (k : Descriptor) (pl : Place) (s : State) : State := changeMemory (fun m => m + 1#8) k pl s

/-- INC ZeroPage (R130, R84; opcode 0xE6). -/
def execIncZp (zp : Byte) (s : State) : Result :=
  .next (onPlace (.zeroPage zp) (inc (descriptor (.incZp zp))) s)

/-- INC ZeroPageX (R130, R85; opcode 0xF6). -/
def execIncZpX (zp : Byte) (s : State) : Result :=
  .next (onPlace (.zeroPageX zp) (inc (descriptor (.incZpX zp))) s)

/-- INC Absolute (R130, R87; opcode 0xEE). -/
def execIncAbs (addr : Word) (s : State) : Result :=
  .next (onPlace (.absolute addr) (inc (descriptor (.incAbs addr))) s)

/-- INC AbsoluteX (R130, R88; opcode 0xFE). -/
def execIncAbsX (addr : Word) (s : State) : Result :=
  .next (onPlace (.absoluteX addr) (inc (descriptor (.incAbsX addr))) s)

/-- DEC (R131): minus one modulo 256. -/
def dec (k : Descriptor) (pl : Place) (s : State) : State := changeMemory (fun m => m - 1#8) k pl s

/-- DEC ZeroPage (R131, R84; opcode 0xC6). -/
def execDecZp (zp : Byte) (s : State) : Result :=
  .next (onPlace (.zeroPage zp) (dec (descriptor (.decZp zp))) s)

/-- DEC ZeroPageX (R131, R85; opcode 0xD6). -/
def execDecZpX (zp : Byte) (s : State) : Result :=
  .next (onPlace (.zeroPageX zp) (dec (descriptor (.decZpX zp))) s)

/-- DEC Absolute (R131, R87; opcode 0xCE). -/
def execDecAbs (addr : Word) (s : State) : Result :=
  .next (onPlace (.absolute addr) (dec (descriptor (.decAbs addr))) s)

/-- DEC AbsoluteX (R131, R88; opcode 0xDE). -/
def execDecAbsX (addr : Word) (s : State) : Result :=
  .next (onPlace (.absoluteX addr) (dec (descriptor (.decAbsX addr))) s)

/-! ## INX, INY, DEX, DEY (R132 to R135): N and Z describe the result, C and V stay -/

/-- INX (R132; opcode 0xE8). -/
def execInx (s : State) : Result :=
  .next (complete (descriptor .inx) 0 (setNZ (s.x + 1#8) { s with x := s.x + 1#8 }))

/-- INY (R133; opcode 0xC8). -/
def execIny (s : State) : Result :=
  .next (complete (descriptor .iny) 0 (setNZ (s.y + 1#8) { s with y := s.y + 1#8 }))

/-- DEX (R134; opcode 0xCA). -/
def execDex (s : State) : Result :=
  .next (complete (descriptor .dex) 0 (setNZ (s.x - 1#8) { s with x := s.x - 1#8 }))

/-- DEY (R135; opcode 0x88). -/
def execDey (s : State) : Result :=
  .next (complete (descriptor .dey) 0 (setNZ (s.y - 1#8) { s with y := s.y - 1#8 }))

end Sys2Proof.Machine
end

