-- ==== Sys2Proof/Machine/Jump.lean ====
section
/-! DEFINITION. The meanings of JMP, JSR and RTS (47_jump_call.md R170 to R172). -/

namespace Sys2Proof.Machine

/-- JMP (R170): PC becomes the effective address; nothing else changes. -/
def jmp (k : Descriptor) (p : Address) (s : State) : State := complete k 0 { s with pc := p.ea }

/-- JMP Absolute (R170, R87; opcode 0x4C). -/
def execJmpAbs (addr : Word) (s : State) : Result :=
  .next (onAddress (.absolute addr) (jmp (descriptor (.jmpAbs addr))) s)

/-- JMP Indirect (R170, R90; opcode 0x6C). -/
def execJmpInd (ptr : Word) (s : State) : Result :=
  .next (onAddress (.indirect ptr) (jmp (descriptor (.jmpInd ptr))) s)

/-- JSR (R171): the address of JSR's own last byte, PC - 1, is pushed high byte first; PC becomes the effective address. -/
def jsr (k : Descriptor) (p : Address) (s : State) : State :=
  let ret := s.pc - 1#16
  let s1 := push (loByte ret) (push (hiByte ret) s)
  complete k 0 { s1 with pc := p.ea }

/-- JSR Absolute (R171, R87; opcode 0x20). -/
def execJsr (addr : Word) (s : State) : Result :=
  .next (onAddress (.absolute addr) (jsr (descriptor (.jsr addr))) s)

/-- RTS (R172): the low byte, then the high byte are pulled; PC becomes that word plus one. -/
def rts (k : Descriptor) (s : State) : State :=
  let lo := pull s
  let hi := pull lo.2
  complete k 0 { hi.2 with pc := mkWord hi.1 lo.1 + 1#16 }

/-- RTS (R172; opcode 0x60). -/
def execRts (s : State) : Result :=
  .next (rts (descriptor .rts) s)

end Sys2Proof.Machine
end

