-- ==== Sys2Proof/Machine/LoadStore.lean ====
section
/-! DEFINITION. The meanings of the load, store and transfer instructions (41_load_store_transfer.md R100 to R111). -/

namespace Sys2Proof.Machine

/-- LDA (R100): the operand byte goes to A; N and Z describe it. -/
def lda (k : Descriptor) (op : Operand) (s : State) : State :=
  let m := loadOperand op s
  complete k (extraForOperand k op) (setNZ m.1 { m.2 with a := m.1 })

/-- LDA Immediate (R100, R83; opcode 0xA9). -/
def execLdaImm (imm : Byte) (s : State) : Result :=
  .next (lda (descriptor (.ldaImm imm)) (.imm imm) s)

/-- LDA ZeroPage (R100, R84; opcode 0xA5). -/
def execLdaZp (zp : Byte) (s : State) : Result :=
  .next (onOperand (.zeroPage zp) (lda (descriptor (.ldaZp zp))) s)

/-- LDA ZeroPageX (R100, R85; opcode 0xB5). -/
def execLdaZpX (zp : Byte) (s : State) : Result :=
  .next (onOperand (.zeroPageX zp) (lda (descriptor (.ldaZpX zp))) s)

/-- LDA Absolute (R100, R87; opcode 0xAD). -/
def execLdaAbs (addr : Word) (s : State) : Result :=
  .next (onOperand (.absolute addr) (lda (descriptor (.ldaAbs addr))) s)

/-- LDA AbsoluteX (R100, R88; opcode 0xBD). -/
def execLdaAbsX (addr : Word) (s : State) : Result :=
  .next (onOperand (.absoluteX addr) (lda (descriptor (.ldaAbsX addr))) s)

/-- LDA AbsoluteY (R100, R89; opcode 0xB9). -/
def execLdaAbsY (addr : Word) (s : State) : Result :=
  .next (onOperand (.absoluteY addr) (lda (descriptor (.ldaAbsY addr))) s)

/-- LDA IndexedIndirect (R100, R91; opcode 0xA1). -/
def execLdaIndX (zp : Byte) (s : State) : Result :=
  .next (onOperand (.indexedIndirect zp) (lda (descriptor (.ldaIndX zp))) s)

/-- LDA IndirectIndexed (R100, R92; opcode 0xB1). -/
def execLdaIndY (zp : Byte) (s : State) : Result :=
  .next (onOperand (.indirectIndexed zp) (lda (descriptor (.ldaIndY zp))) s)

/-- LDX (R101): the operand byte goes to X; N and Z describe it. -/
def ldx (k : Descriptor) (op : Operand) (s : State) : State :=
  let m := loadOperand op s
  complete k (extraForOperand k op) (setNZ m.1 { m.2 with x := m.1 })

/-- LDX Immediate (R101, R83; opcode 0xA2). -/
def execLdxImm (imm : Byte) (s : State) : Result :=
  .next (ldx (descriptor (.ldxImm imm)) (.imm imm) s)

/-- LDX ZeroPage (R101, R84; opcode 0xA6). -/
def execLdxZp (zp : Byte) (s : State) : Result :=
  .next (onOperand (.zeroPage zp) (ldx (descriptor (.ldxZp zp))) s)

/-- LDX ZeroPageY (R101, R86; opcode 0xB6). -/
def execLdxZpY (zp : Byte) (s : State) : Result :=
  .next (onOperand (.zeroPageY zp) (ldx (descriptor (.ldxZpY zp))) s)

/-- LDX Absolute (R101, R87; opcode 0xAE). -/
def execLdxAbs (addr : Word) (s : State) : Result :=
  .next (onOperand (.absolute addr) (ldx (descriptor (.ldxAbs addr))) s)

/-- LDX AbsoluteY (R101, R89; opcode 0xBE). -/
def execLdxAbsY (addr : Word) (s : State) : Result :=
  .next (onOperand (.absoluteY addr) (ldx (descriptor (.ldxAbsY addr))) s)

/-- LDY (R102): the operand byte goes to Y; N and Z describe it. -/
def ldy (k : Descriptor) (op : Operand) (s : State) : State :=
  let m := loadOperand op s
  complete k (extraForOperand k op) (setNZ m.1 { m.2 with y := m.1 })

/-- LDY Immediate (R102, R83; opcode 0xA0). -/
def execLdyImm (imm : Byte) (s : State) : Result :=
  .next (ldy (descriptor (.ldyImm imm)) (.imm imm) s)

/-- LDY ZeroPage (R102, R84; opcode 0xA4). -/
def execLdyZp (zp : Byte) (s : State) : Result :=
  .next (onOperand (.zeroPage zp) (ldy (descriptor (.ldyZp zp))) s)

/-- LDY ZeroPageX (R102, R85; opcode 0xB4). -/
def execLdyZpX (zp : Byte) (s : State) : Result :=
  .next (onOperand (.zeroPageX zp) (ldy (descriptor (.ldyZpX zp))) s)

/-- LDY Absolute (R102, R87; opcode 0xAC). -/
def execLdyAbs (addr : Word) (s : State) : Result :=
  .next (onOperand (.absolute addr) (ldy (descriptor (.ldyAbs addr))) s)

/-- LDY AbsoluteX (R102, R88; opcode 0xBC). -/
def execLdyAbsX (addr : Word) (s : State) : Result :=
  .next (onOperand (.absoluteX addr) (ldy (descriptor (.ldyAbsX addr))) s)

/-- STA (R103): A is written to the effective address; no flag and no register changes, no page-cross cycle. -/
def sta (k : Descriptor) (p : Address) (s : State) : State :=
  complete k 0 (storeOperand (.addr p) s.a s)

/-- STA ZeroPage (R103, R84; opcode 0x85). -/
def execStaZp (zp : Byte) (s : State) : Result :=
  .next (onAddress (.zeroPage zp) (sta (descriptor (.staZp zp))) s)

/-- STA ZeroPageX (R103, R85; opcode 0x95). -/
def execStaZpX (zp : Byte) (s : State) : Result :=
  .next (onAddress (.zeroPageX zp) (sta (descriptor (.staZpX zp))) s)

/-- STA Absolute (R103, R87; opcode 0x8D). -/
def execStaAbs (addr : Word) (s : State) : Result :=
  .next (onAddress (.absolute addr) (sta (descriptor (.staAbs addr))) s)

/-- STA AbsoluteX (R103, R88; opcode 0x9D). -/
def execStaAbsX (addr : Word) (s : State) : Result :=
  .next (onAddress (.absoluteX addr) (sta (descriptor (.staAbsX addr))) s)

/-- STA AbsoluteY (R103, R89; opcode 0x99). -/
def execStaAbsY (addr : Word) (s : State) : Result :=
  .next (onAddress (.absoluteY addr) (sta (descriptor (.staAbsY addr))) s)

/-- STA IndexedIndirect (R103, R91; opcode 0x81). -/
def execStaIndX (zp : Byte) (s : State) : Result :=
  .next (onAddress (.indexedIndirect zp) (sta (descriptor (.staIndX zp))) s)

/-- STA IndirectIndexed (R103, R92; opcode 0x91). -/
def execStaIndY (zp : Byte) (s : State) : Result :=
  .next (onAddress (.indirectIndexed zp) (sta (descriptor (.staIndY zp))) s)

/-- STX (R104): X is written to the effective address; no flag and no register changes, no page-cross cycle. -/
def stx (k : Descriptor) (p : Address) (s : State) : State :=
  complete k 0 (storeOperand (.addr p) s.x s)

/-- STX ZeroPage (R104, R84; opcode 0x86). -/
def execStxZp (zp : Byte) (s : State) : Result :=
  .next (onAddress (.zeroPage zp) (stx (descriptor (.stxZp zp))) s)

/-- STX ZeroPageY (R104, R86; opcode 0x96). -/
def execStxZpY (zp : Byte) (s : State) : Result :=
  .next (onAddress (.zeroPageY zp) (stx (descriptor (.stxZpY zp))) s)

/-- STX Absolute (R104, R87; opcode 0x8E). -/
def execStxAbs (addr : Word) (s : State) : Result :=
  .next (onAddress (.absolute addr) (stx (descriptor (.stxAbs addr))) s)

/-- STY (R105): Y is written to the effective address; no flag and no register changes, no page-cross cycle. -/
def sty (k : Descriptor) (p : Address) (s : State) : State :=
  complete k 0 (storeOperand (.addr p) s.y s)

/-- STY ZeroPage (R105, R84; opcode 0x84). -/
def execStyZp (zp : Byte) (s : State) : Result :=
  .next (onAddress (.zeroPage zp) (sty (descriptor (.styZp zp))) s)

/-- STY ZeroPageX (R105, R85; opcode 0x94). -/
def execStyZpX (zp : Byte) (s : State) : Result :=
  .next (onAddress (.zeroPageX zp) (sty (descriptor (.styZpX zp))) s)

/-- STY Absolute (R105, R87; opcode 0x8C). -/
def execStyAbs (addr : Word) (s : State) : Result :=
  .next (onAddress (.absolute addr) (sty (descriptor (.styAbs addr))) s)

/-! ## Transfers (R106 to R111): N and Z describe the byte copied, but for TXS, which writes no flag -/

/-- TAX (R106; opcode 0xAA). -/
def execTax (s : State) : Result :=
  .next (complete (descriptor .tax) 0 (setNZ s.a { s with x := s.a }))

/-- TAY (R107; opcode 0xA8). -/
def execTay (s : State) : Result :=
  .next (complete (descriptor .tay) 0 (setNZ s.a { s with y := s.a }))

/-- TXA (R108; opcode 0x8A). -/
def execTxa (s : State) : Result :=
  .next (complete (descriptor .txa) 0 (setNZ s.x { s with a := s.x }))

/-- TYA (R109; opcode 0x98). -/
def execTya (s : State) : Result :=
  .next (complete (descriptor .tya) 0 (setNZ s.y { s with a := s.y }))

/-- TSX (R110; opcode 0xBA). -/
def execTsx (s : State) : Result :=
  .next (complete (descriptor .tsx) 0 (setNZ s.sp { s with x := s.sp }))

/-- TXS (R111; opcode 0x9A). -/
def execTxs (s : State) : Result :=
  .next (complete (descriptor .txs) 0 ({ s with sp := s.x }))

end Sys2Proof.Machine
end

