-- ==== Sys2Proof/Machine/Logic.lean ====
section
/-! DEFINITION. The meanings of the logic and compare instructions (45_logic_compare.md R150 to R156). -/

namespace Sys2Proof.Machine

/-- What AND, ORA and EOR share (R150 to R152): A becomes `f A m`; N and Z describe it, C and V stay. -/
def logic (f : Byte → Byte → Byte) (k : Descriptor) (op : Operand) (s : State) : State :=
  let m := loadOperand op s
  let r := f s.a m.1
  complete k (extraForOperand k op) (setNZ r { m.2 with a := r })

/-- AND (R150). -/
def andRule (k : Descriptor) (op : Operand) (s : State) : State := logic (fun a m => a &&& m) k op s

/-- AND Immediate (R150, R83; opcode 0x29). -/
def execAndImm (imm : Byte) (s : State) : Result :=
  .next (andRule (descriptor (.andImm imm)) (.imm imm) s)

/-- AND ZeroPage (R150, R84; opcode 0x25). -/
def execAndZp (zp : Byte) (s : State) : Result :=
  .next (onOperand (.zeroPage zp) (andRule (descriptor (.andZp zp))) s)

/-- AND ZeroPageX (R150, R85; opcode 0x35). -/
def execAndZpX (zp : Byte) (s : State) : Result :=
  .next (onOperand (.zeroPageX zp) (andRule (descriptor (.andZpX zp))) s)

/-- AND Absolute (R150, R87; opcode 0x2D). -/
def execAndAbs (addr : Word) (s : State) : Result :=
  .next (onOperand (.absolute addr) (andRule (descriptor (.andAbs addr))) s)

/-- AND AbsoluteX (R150, R88; opcode 0x3D). -/
def execAndAbsX (addr : Word) (s : State) : Result :=
  .next (onOperand (.absoluteX addr) (andRule (descriptor (.andAbsX addr))) s)

/-- AND AbsoluteY (R150, R89; opcode 0x39). -/
def execAndAbsY (addr : Word) (s : State) : Result :=
  .next (onOperand (.absoluteY addr) (andRule (descriptor (.andAbsY addr))) s)

/-- AND IndexedIndirect (R150, R91; opcode 0x21). -/
def execAndIndX (zp : Byte) (s : State) : Result :=
  .next (onOperand (.indexedIndirect zp) (andRule (descriptor (.andIndX zp))) s)

/-- AND IndirectIndexed (R150, R92; opcode 0x31). -/
def execAndIndY (zp : Byte) (s : State) : Result :=
  .next (onOperand (.indirectIndexed zp) (andRule (descriptor (.andIndY zp))) s)

/-- ORA (R151). -/
def oraRule (k : Descriptor) (op : Operand) (s : State) : State := logic (fun a m => a ||| m) k op s

/-- ORA Immediate (R151, R83; opcode 0x09). -/
def execOraImm (imm : Byte) (s : State) : Result :=
  .next (oraRule (descriptor (.oraImm imm)) (.imm imm) s)

/-- ORA ZeroPage (R151, R84; opcode 0x05). -/
def execOraZp (zp : Byte) (s : State) : Result :=
  .next (onOperand (.zeroPage zp) (oraRule (descriptor (.oraZp zp))) s)

/-- ORA ZeroPageX (R151, R85; opcode 0x15). -/
def execOraZpX (zp : Byte) (s : State) : Result :=
  .next (onOperand (.zeroPageX zp) (oraRule (descriptor (.oraZpX zp))) s)

/-- ORA Absolute (R151, R87; opcode 0x0D). -/
def execOraAbs (addr : Word) (s : State) : Result :=
  .next (onOperand (.absolute addr) (oraRule (descriptor (.oraAbs addr))) s)

/-- ORA AbsoluteX (R151, R88; opcode 0x1D). -/
def execOraAbsX (addr : Word) (s : State) : Result :=
  .next (onOperand (.absoluteX addr) (oraRule (descriptor (.oraAbsX addr))) s)

/-- ORA AbsoluteY (R151, R89; opcode 0x19). -/
def execOraAbsY (addr : Word) (s : State) : Result :=
  .next (onOperand (.absoluteY addr) (oraRule (descriptor (.oraAbsY addr))) s)

/-- ORA IndexedIndirect (R151, R91; opcode 0x01). -/
def execOraIndX (zp : Byte) (s : State) : Result :=
  .next (onOperand (.indexedIndirect zp) (oraRule (descriptor (.oraIndX zp))) s)

/-- ORA IndirectIndexed (R151, R92; opcode 0x11). -/
def execOraIndY (zp : Byte) (s : State) : Result :=
  .next (onOperand (.indirectIndexed zp) (oraRule (descriptor (.oraIndY zp))) s)

/-- EOR (R152). -/
def eorRule (k : Descriptor) (op : Operand) (s : State) : State := logic (fun a m => a ^^^ m) k op s

/-- EOR Immediate (R152, R83; opcode 0x49). -/
def execEorImm (imm : Byte) (s : State) : Result :=
  .next (eorRule (descriptor (.eorImm imm)) (.imm imm) s)

/-- EOR ZeroPage (R152, R84; opcode 0x45). -/
def execEorZp (zp : Byte) (s : State) : Result :=
  .next (onOperand (.zeroPage zp) (eorRule (descriptor (.eorZp zp))) s)

/-- EOR ZeroPageX (R152, R85; opcode 0x55). -/
def execEorZpX (zp : Byte) (s : State) : Result :=
  .next (onOperand (.zeroPageX zp) (eorRule (descriptor (.eorZpX zp))) s)

/-- EOR Absolute (R152, R87; opcode 0x4D). -/
def execEorAbs (addr : Word) (s : State) : Result :=
  .next (onOperand (.absolute addr) (eorRule (descriptor (.eorAbs addr))) s)

/-- EOR AbsoluteX (R152, R88; opcode 0x5D). -/
def execEorAbsX (addr : Word) (s : State) : Result :=
  .next (onOperand (.absoluteX addr) (eorRule (descriptor (.eorAbsX addr))) s)

/-- EOR AbsoluteY (R152, R89; opcode 0x59). -/
def execEorAbsY (addr : Word) (s : State) : Result :=
  .next (onOperand (.absoluteY addr) (eorRule (descriptor (.eorAbsY addr))) s)

/-- EOR IndexedIndirect (R152, R91; opcode 0x41). -/
def execEorIndX (zp : Byte) (s : State) : Result :=
  .next (onOperand (.indexedIndirect zp) (eorRule (descriptor (.eorIndX zp))) s)

/-- EOR IndirectIndexed (R152, R92; opcode 0x51). -/
def execEorIndY (zp : Byte) (s : State) : Result :=
  .next (onOperand (.indirectIndexed zp) (eorRule (descriptor (.eorIndY zp))) s)

/-! ## Compares -/

/-- What CMP, CPX and CPY share: `Compare(r, m)` (R153) of a register with the operand byte. -/
def compareWith (r : State → Byte) (k : Descriptor) (op : Operand) (s : State) : State :=
  let m := loadOperand op s
  complete k (extraForOperand k op) (compareBytes (r s) m.1 m.2)

/-- CMP (R154): `Compare(A, m)`. -/
def cmp (k : Descriptor) (op : Operand) (s : State) : State := compareWith State.a k op s

/-- CMP Immediate (R154, R83; opcode 0xC9). -/
def execCmpImm (imm : Byte) (s : State) : Result :=
  .next (cmp (descriptor (.cmpImm imm)) (.imm imm) s)

/-- CMP ZeroPage (R154, R84; opcode 0xC5). -/
def execCmpZp (zp : Byte) (s : State) : Result :=
  .next (onOperand (.zeroPage zp) (cmp (descriptor (.cmpZp zp))) s)

/-- CMP ZeroPageX (R154, R85; opcode 0xD5). -/
def execCmpZpX (zp : Byte) (s : State) : Result :=
  .next (onOperand (.zeroPageX zp) (cmp (descriptor (.cmpZpX zp))) s)

/-- CMP Absolute (R154, R87; opcode 0xCD). -/
def execCmpAbs (addr : Word) (s : State) : Result :=
  .next (onOperand (.absolute addr) (cmp (descriptor (.cmpAbs addr))) s)

/-- CMP AbsoluteX (R154, R88; opcode 0xDD). -/
def execCmpAbsX (addr : Word) (s : State) : Result :=
  .next (onOperand (.absoluteX addr) (cmp (descriptor (.cmpAbsX addr))) s)

/-- CMP AbsoluteY (R154, R89; opcode 0xD9). -/
def execCmpAbsY (addr : Word) (s : State) : Result :=
  .next (onOperand (.absoluteY addr) (cmp (descriptor (.cmpAbsY addr))) s)

/-- CMP IndexedIndirect (R154, R91; opcode 0xC1). -/
def execCmpIndX (zp : Byte) (s : State) : Result :=
  .next (onOperand (.indexedIndirect zp) (cmp (descriptor (.cmpIndX zp))) s)

/-- CMP IndirectIndexed (R154, R92; opcode 0xD1). -/
def execCmpIndY (zp : Byte) (s : State) : Result :=
  .next (onOperand (.indirectIndexed zp) (cmp (descriptor (.cmpIndY zp))) s)

/-- CPX (R155): `Compare(X, m)`. -/
def cpx (k : Descriptor) (op : Operand) (s : State) : State := compareWith State.x k op s

/-- CPX Immediate (R155, R83; opcode 0xE0). -/
def execCpxImm (imm : Byte) (s : State) : Result :=
  .next (cpx (descriptor (.cpxImm imm)) (.imm imm) s)

/-- CPX ZeroPage (R155, R84; opcode 0xE4). -/
def execCpxZp (zp : Byte) (s : State) : Result :=
  .next (onOperand (.zeroPage zp) (cpx (descriptor (.cpxZp zp))) s)

/-- CPX Absolute (R155, R87; opcode 0xEC). -/
def execCpxAbs (addr : Word) (s : State) : Result :=
  .next (onOperand (.absolute addr) (cpx (descriptor (.cpxAbs addr))) s)

/-- CPY (R156): `Compare(Y, m)`. -/
def cpy (k : Descriptor) (op : Operand) (s : State) : State := compareWith State.y k op s

/-- CPY Immediate (R156, R83; opcode 0xC0). -/
def execCpyImm (imm : Byte) (s : State) : Result :=
  .next (cpy (descriptor (.cpyImm imm)) (.imm imm) s)

/-- CPY ZeroPage (R156, R84; opcode 0xC4). -/
def execCpyZp (zp : Byte) (s : State) : Result :=
  .next (onOperand (.zeroPage zp) (cpy (descriptor (.cpyZp zp))) s)

/-- CPY Absolute (R156, R87; opcode 0xCC). -/
def execCpyAbs (addr : Word) (s : State) : Result :=
  .next (onOperand (.absolute addr) (cpy (descriptor (.cpyAbs addr))) s)

end Sys2Proof.Machine
end

