-- ==== Sys2Proof/Machine/Shift.lean ====
section
/-! DEFINITION. The meanings of the shift and rotate instructions (44_shift_rotate.md R140 to R144). -/

namespace Sys2Proof.Machine

/-- What the four share (R140): read the byte, shift it, write it back to the same place; C takes the bit that leaves, N and Z
describe the result, V stays, no page-cross cycle. -/
def shiftPlace (f : Byte → Byte × Bool) (k : Descriptor) (pl : Place) (s : State) : State :=
  let m := loadOperand (placeOperand pl) s
  let r := f m.1
  complete k 0 (setNZ r.1 (storeOperand pl r.1 { m.2 with c := r.2 }))

/-- ASL (R141): 0 enters at bit 0, the old bit 7 goes to C. -/
def asl (k : Descriptor) (pl : Place) (s : State) : State := shiftPlace shiftLeft k pl s

/-- ASL Accumulator (R141, R82; opcode 0x0A). -/
def execAslAcc (s : State) : Result :=
  .next (asl (descriptor .aslAcc) .acc s)

/-- ASL ZeroPage (R141, R84; opcode 0x06). -/
def execAslZp (zp : Byte) (s : State) : Result :=
  .next (onPlace (.zeroPage zp) (asl (descriptor (.aslZp zp))) s)

/-- ASL ZeroPageX (R141, R85; opcode 0x16). -/
def execAslZpX (zp : Byte) (s : State) : Result :=
  .next (onPlace (.zeroPageX zp) (asl (descriptor (.aslZpX zp))) s)

/-- ASL Absolute (R141, R87; opcode 0x0E). -/
def execAslAbs (addr : Word) (s : State) : Result :=
  .next (onPlace (.absolute addr) (asl (descriptor (.aslAbs addr))) s)

/-- ASL AbsoluteX (R141, R88; opcode 0x1E). -/
def execAslAbsX (addr : Word) (s : State) : Result :=
  .next (onPlace (.absoluteX addr) (asl (descriptor (.aslAbsX addr))) s)

/-- LSR (R142): 0 enters at bit 7, the old bit 0 goes to C. -/
def lsr (k : Descriptor) (pl : Place) (s : State) : State := shiftPlace shiftRight k pl s

/-- LSR Accumulator (R142, R82; opcode 0x4A). -/
def execLsrAcc (s : State) : Result :=
  .next (lsr (descriptor .lsrAcc) .acc s)

/-- LSR ZeroPage (R142, R84; opcode 0x46). -/
def execLsrZp (zp : Byte) (s : State) : Result :=
  .next (onPlace (.zeroPage zp) (lsr (descriptor (.lsrZp zp))) s)

/-- LSR ZeroPageX (R142, R85; opcode 0x56). -/
def execLsrZpX (zp : Byte) (s : State) : Result :=
  .next (onPlace (.zeroPageX zp) (lsr (descriptor (.lsrZpX zp))) s)

/-- LSR Absolute (R142, R87; opcode 0x4E). -/
def execLsrAbs (addr : Word) (s : State) : Result :=
  .next (onPlace (.absolute addr) (lsr (descriptor (.lsrAbs addr))) s)

/-- LSR AbsoluteX (R142, R88; opcode 0x5E). -/
def execLsrAbsX (addr : Word) (s : State) : Result :=
  .next (onPlace (.absoluteX addr) (lsr (descriptor (.lsrAbsX addr))) s)

/-- ROL (R143): the old C enters at bit 0, the old bit 7 goes to C. -/
def rol (k : Descriptor) (pl : Place) (s : State) : State := shiftPlace (rotateLeft s.c) k pl s

/-- ROL Accumulator (R143, R82; opcode 0x2A). -/
def execRolAcc (s : State) : Result :=
  .next (rol (descriptor .rolAcc) .acc s)

/-- ROL ZeroPage (R143, R84; opcode 0x26). -/
def execRolZp (zp : Byte) (s : State) : Result :=
  .next (onPlace (.zeroPage zp) (rol (descriptor (.rolZp zp))) s)

/-- ROL ZeroPageX (R143, R85; opcode 0x36). -/
def execRolZpX (zp : Byte) (s : State) : Result :=
  .next (onPlace (.zeroPageX zp) (rol (descriptor (.rolZpX zp))) s)

/-- ROL Absolute (R143, R87; opcode 0x2E). -/
def execRolAbs (addr : Word) (s : State) : Result :=
  .next (onPlace (.absolute addr) (rol (descriptor (.rolAbs addr))) s)

/-- ROL AbsoluteX (R143, R88; opcode 0x3E). -/
def execRolAbsX (addr : Word) (s : State) : Result :=
  .next (onPlace (.absoluteX addr) (rol (descriptor (.rolAbsX addr))) s)

/-- ROR (R144): the old C enters at bit 7, the old bit 0 goes to C. -/
def ror (k : Descriptor) (pl : Place) (s : State) : State := shiftPlace (rotateRight s.c) k pl s

/-- ROR Accumulator (R144, R82; opcode 0x6A). -/
def execRorAcc (s : State) : Result :=
  .next (ror (descriptor .rorAcc) .acc s)

/-- ROR ZeroPage (R144, R84; opcode 0x66). -/
def execRorZp (zp : Byte) (s : State) : Result :=
  .next (onPlace (.zeroPage zp) (ror (descriptor (.rorZp zp))) s)

/-- ROR ZeroPageX (R144, R85; opcode 0x76). -/
def execRorZpX (zp : Byte) (s : State) : Result :=
  .next (onPlace (.zeroPageX zp) (ror (descriptor (.rorZpX zp))) s)

/-- ROR Absolute (R144, R87; opcode 0x6E). -/
def execRorAbs (addr : Word) (s : State) : Result :=
  .next (onPlace (.absolute addr) (ror (descriptor (.rorAbs addr))) s)

/-- ROR AbsoluteX (R144, R88; opcode 0x7E). -/
def execRorAbsX (addr : Word) (s : State) : Result :=
  .next (onPlace (.absoluteX addr) (ror (descriptor (.rorAbsX addr))) s)

end Sys2Proof.Machine
end

