-- ==== Sys2Proof/Machine/Stack.lean ====
section
/-! DEFINITION. The meanings of the stack and flag instructions (48_stack_flag.md R182 to R192). -/

namespace Sys2Proof.Machine

/-- PHA (R182; opcode 0x48): A is pushed, no flag changes. -/
def execPha (s : State) : Result :=
  .next (complete (descriptor .pha) 0 (push s.a s))

/-- PLA's effect (R183): the byte pulled goes to A; N and Z describe it. -/
def pla (k : Descriptor) (s : State) : State :=
  let m := pull s
  complete k 0 (setNZ m.1 { m.2 with a := m.1 })

/-- PLA (R183; opcode 0x68). -/
def execPla (s : State) : Result :=
  .next (pla (descriptor .pla) s)

/-- PHP (R184; opcode 0x08): the status byte is pushed, bit 5 as 1 and B as it is stored. -/
def execPhp (s : State) : Result :=
  .next (complete (descriptor .php) 0 (push (statusByte s) s))

/-- PLP's effect (R185): all seven flags are loaded from the byte pulled. -/
def plp (k : Descriptor) (s : State) : State :=
  let m := pull s
  complete k 0 (setStatus m.1 m.2)

/-- PLP (R185; opcode 0x28). -/
def execPlp (s : State) : Result :=
  .next (plp (descriptor .plp) s)

/-! ## Flag instructions (R186 to R192): "mutate exactly one flag; 2 cycles; no memory access" -/

/-- CLC (R186; opcode 0x18). -/
def execClc (s : State) : Result :=
  .next (complete (descriptor .clc) 0 ({ s with c := false }))

/-- SEC (R187; opcode 0x38). -/
def execSec (s : State) : Result :=
  .next (complete (descriptor .sec) 0 ({ s with c := true }))

/-- CLI (R188; opcode 0x58). -/
def execCli (s : State) : Result :=
  .next (complete (descriptor .cli) 0 ({ s with i := false }))

/-- SEI (R189; opcode 0x78). -/
def execSei (s : State) : Result :=
  .next (complete (descriptor .sei) 0 ({ s with i := true }))

/-- CLD (R190; opcode 0xD8). -/
def execCld (s : State) : Result :=
  .next (complete (descriptor .cld) 0 ({ s with d := false }))

/-- SED (R191; opcode 0xF8). -/
def execSed (s : State) : Result :=
  .next (complete (descriptor .sed) 0 ({ s with d := true }))

/-- CLV (R192; opcode 0xB8). -/
def execClv (s : State) : Result :=
  .next (complete (descriptor .clv) 0 ({ s with v := false }))

end Sys2Proof.Machine
end

