-- ==== Sys2Proof/Machine/System.lean ====
section
/-! DEFINITION. The meanings of BIT, NOP, BRK and RTI (49_bit_nop_brk_rti.md R200 to R203). -/

namespace Sys2Proof.Machine

/-- BIT (R200): Z from `A & m`, N from bit 7 and V from bit 6 of the byte itself; A, C and memory stay. -/
def bit (k : Descriptor) (op : Operand) (s : State) : State :=
  let m := loadOperand op s
  complete k 0 { m.2 with z := (s.a &&& m.1) == 0x00#8, n := m.1.getLsbD 7, v := m.1.getLsbD 6 }

/-- BIT ZeroPage (R200, R84; opcode 0x24). -/
def execBitZp (zp : Byte) (s : State) : Result :=
  .next (onOperand (.zeroPage zp) (bit (descriptor (.bitZp zp))) s)

/-- BIT Absolute (R200, R87; opcode 0x2C). -/
def execBitAbs (addr : Word) (s : State) : Result :=
  .next (onOperand (.absolute addr) (bit (descriptor (.bitAbs addr))) s)

/-- NOP (R201; opcode 0xEA): nothing but the cycles. -/
def execNop (s : State) : Result :=
  .next (complete (descriptor .nop) 0 (s))

/-- BRK (R202; opcode 0x00): the trap is taken (60_exceptions.md R215). -/
def execBrk (s : State) : Result :=
  .next (complete (descriptor .brk) 0 (enterBrk s))

/-- RTI (R203; opcode 0x40): the return from the trap (60_exceptions.md R217). -/
def execRti (s : State) : Result :=
  .next (complete (descriptor .rti) 0 (returnFromBrk s))

end Sys2Proof.Machine
end

