-- ==== Sys2Proof/Machine/Fetch.lean ====
section
/-! DEFINITION. What a step does before the instruction's own rule: it fetches the opcode byte, finds the table entry, and
fetches the operand bytes (30_encoding.md R69, R70; log entry 12); and how an instruction's bytes are put in memory. -/

namespace Sys2Proof.Machine

/-- A new step: the transactions of the step before it join the history (log entry 4). -/
def beginStep (s : State) : State :=
  { s with history := s.history ++ s.trace, trace := [] }

/-- Fetch the operand bytes an entry asks for, low byte first (R69, R87), and make the instruction. -/
def fetchOperand : Entry → State → Instr × State
  | .noOperand i, s => (i, s)
  | .byteOperand make, s =>
    let b0 := fetch8 s
    (make b0.1, b0.2)
  | .wordOperand make, s =>
    let b0 := fetch8 s
    let b1 := fetch8 b0.2
    (make (mkWord b1.1 b0.1), b1.2)

/-- The opcode fetch, the lookup and the operand fetch (R70). An undefined opcode byte is the fault, raised from the state
the opcode fetch left, with the address the byte was fetched from (60_exceptions.md R211). -/
def fetchInstr (s : State) : Except Fault (Instr × State) :=
  let opcode := fetch8 s
  match lookupOpcode opcode.1 with
  | none => .error (raiseIllegalOpcode opcode.1 s.pc opcode.2)
  | some entry => .ok (fetchOperand entry opcode.2)

/-- Put bytes at ascending addresses modulo 65536 (R60). -/
def storeBytes (addr : Word) : List Byte → Memory → Memory
  | [], m => m
  | b :: rest, m => storeBytes (addr + 1#16) rest (m.write addr b)

/-- The longest instruction, three bytes, with its bits numbered as spec/opcode_table.json numbers them: bits from `nbits` up
are 0, the first byte is bits 7..0. -/
def tableBytes (nbits w : Nat) : List Byte :=
  let bits := w % 2 ^ nbits
  [BitVec.ofNat 8 bits, BitVec.ofNat 8 (bits / 256), BitVec.ofNat 8 (bits / 65536)]

end Sys2Proof.Machine
end

