-- ==== Sys2Proof/Machine/Step.lean ====
section
/-! DEFINITION. `Step()` (30_encoding.md R70): one instruction, with three outcomes: the next state, the one fault, or a refusal when
the run status does not enable a step (10_state.md R34). -/

namespace Sys2Proof.Machine

def step (s : State) : Host.Outcome State Fault Refusal :=
  match s.run with
  | .running =>
    match fetchInstr (beginStep s) with
    | .ok (i, t) => exec i t
    | .error f => .fault f
  | .halted => .refused (.notRunning .halted)
  | .faulted opcode addr => .refused (.notRunning (.faulted opcode addr))

/-- The state with an instruction's bits stored where `step` fetches next, and a step enabled: the embedder's load of a
program (log entry 15). -/
def State.withFetchWord (s : State) (nbits w : Nat) : State :=
  { s with mem := storeBytes s.pc (tableBytes nbits w) s.mem, run := .running }

end Sys2Proof.Machine
end

