-- ==== Sys2Proof/Machine/Run.lean ====
section
/-! DEFINITION. The embedder's operations around `Step()` (70_reset_and_hazards.md R244): reset and the run loop with its halt
predicate, a parameter (R247; log entry 14). -/

namespace Sys2Proof.Machine

/-- `Reset()` (R240): may be applied in any run status and always leaves `Running`. Memory stays as it is: "it writes no
memory". The record of transactions begins anew (log entry 18). -/
def applyReset (entry : Word) (s : State) : State := State.resetWith entry s.mem

/-- How a run by `runUntil` ends, or that it has not ended (R248, R249). -/
inductive RunEnd where
  /-- Halted: a step completed and the predicate was true after it. The one successful end. -/
  | halted (final : State)
  /-- Faulted: a step fetched an undefined opcode. -/
  | faulted (f : Fault)
  /-- The steps allowed are used up and the run has not ended (R249). -/
  | notEnded (s : State)
  /-- The run was asked for while `RUN` was not `Running` (R246). -/
  | notEnabled (r : Refusal)
  deriving DecidableEq, Repr

/-- `Run()` (R246), cut off after a number of steps: step, end if it faulted, then ask the predicate, and become `Halted` if
it answers true. -/
def runUntil (halt : State → Bool) : Nat → State → RunEnd
  | 0, s => .notEnded s
  | k + 1, s =>
    match step s with
    | .next t => if halt t then .halted { t with run := .halted } else runUntil halt k t
    | .fault f => .faulted f
    | .refused r => .notEnabled r

/-- Whether a transaction is a read of the BRK vector. -/
def Transaction.readsVector : Transaction → Bool
  | .read addr _ => addr == brkVectorLow || addr == brkVectorHigh
  | .write _ _ => false

/-- `HaltOnVectorRead` (R247): the latest step issued a `MemRead` at 0xFFFE or at 0xFFFF. -/
def haltOnVectorRead (s : State) : Bool := s.trace.any Transaction.readsVector

/-- `HaltAtPC(a)` (R247). -/
def haltAtPC (a : Word) (s : State) : Bool := s.pc == a

end Sys2Proof.Machine
end

