-- ==== Sys2Proof/Safety.lean ====
section
/-! DEFINITION. The terms claims are stated in: what a safe run is, what a transaction record says, what an instruction may
change, and the shapes in which an instruction's effect is stated (a record update names every field that changes, so it
is the frame as well). -/

namespace Sys2Proof.Safety

open Sys2Proof.Machine

/-! ## Memory, seen through reads -/

/-- The second memory is the first with exactly the listed bytes replaced; every other address reads as before. -/
def BytesChanged (m m' : Memory) (cells : List (Word × Byte)) : Prop :=
  (∀ cell ∈ cells, m'.read cell.1 = cell.2) ∧
  ∀ other : Word, (∀ cell ∈ cells, other ≠ cell.1) → m'.read other = m.read other

/-- The listed bytes lie in memory at ascending addresses modulo 65536 (30_encoding.md R60). -/
def BytesAt (m : Memory) : Word → List Byte → Prop
  | _, [] => True
  | addr, b :: rest => m.read addr = b ∧ BytesAt m (addr + 1#16) rest

/-- The reads that fetch the listed bytes from ascending addresses. -/
def fetchReads : Word → List Byte → List Transaction
  | _, [] => []
  | addr, b :: rest => .read addr b :: fetchReads (addr + 1#16) rest

/-- Play a record of transactions over a memory: each write is done, and each read must have answered what the memory holds at
that point, or the record is not one of plain memory (20_memory.md R51). -/
def replay : List Transaction → Memory → Option Memory
  | [], m => some m
  | .read addr val :: rest, m => if m.read addr = val then replay rest m else none
  | .write addr val :: rest, m => replay rest (m.write addr val)

/-! ## Safe states and runs -/

/-- What every step from a running state keeps: memory in canonical form, `RUN = Running`, and all transactions since the
memory was `mem0` account for the memory as it is. -/
structure Inv (mem0 : Memory) (s : State) : Prop where
  canonical : s.mem.wf = true
  running : s.run = .running
  accounted : replay (s.history ++ s.trace) mem0 = some s.mem

/-- A run is safe when it does not end in the fault (70_reset_and_hazards.md R248). -/
def SafeEnd : RunEnd → Prop
  | .halted _ | .notEnded _ => True
  | .faulted _ | .notEnabled _ => False

/-- The state after a number of steps, none of which stops. -/
def stepsTo : Nat → State → Option State
  | 0, s => some s
  | k + 1, s =>
    match step s with
    | .next t => stepsTo k t
    | .fault _ => none
    | .refused _ => none

/-- Two states that agree in everything the core's rules read: all but the cycle counter and the port's record. -/
def SameMachine (s t : State) : Prop :=
  { s with cyc := 0, trace := [], history := [] } = { t with cyc := 0, trace := [], history := [] }

/-- Two outcomes of steps from `s` and `s'` that differ only in the cycle counter's and the history's starting point. -/
def SameOutcome (s s' : State) : Result → Result → Prop
  | .next t, .next t' => SameMachine t t' ∧ t.trace = t'.trace ∧ t.cyc + s'.cyc = t'.cyc + s.cyc
  | .fault (.illegalOpcode o a f), .fault (.illegalOpcode o' a' f') => o = o' ∧ a = a' ∧ SameMachine f f'
  | .refused r, .refused r' => r = r'
  | _, _ => False

/-! ## Packed BCD (42_arithmetic.md R121) -/

/-- `dec(b)`: the number two packed decimal digits stand for. -/
def bcdValue (b : Byte) : Nat := 10 * highNibble b + lowNibble b

/-- Both nibbles are decimal digits. -/
def ValidBcd (b : Byte) : Prop := highNibble b ≤ 9 ∧ lowNibble b ≤ 9

/-! ## Who writes what: the tables of 10_state.md R25 and R32, by mnemonic -/

/-- The instructions that call `SetNZ` (R29). -/
def callsSetNZ : List Mnemonic :=
  [.lda, .ldx, .ldy, .tax, .tay, .txa, .tya, .tsx, .pla, .adc, .sbc, .and, .ora, .eor, .asl, .lsr, .rol, .ror] ++
  [.inc, .dec, .inx, .iny, .dex, .dey, .cmp, .cpx, .cpy]

/-- R25, column "written by", line C. -/
def writersOfC : List Mnemonic :=
  [.adc, .sbc, .asl, .lsr, .rol, .ror, .cmp, .cpx, .cpy, .clc, .sec, .plp, .rti]

/-- R25, line Z; line N names the same instructions. -/
def writersOfNZ : List Mnemonic := callsSetNZ ++ [.bit, .plp, .rti]

/-- R25, line I. -/
def writersOfI : List Mnemonic := [.sei, .cli, .brk, .plp, .rti]

/-- R25, line D. -/
def writersOfD : List Mnemonic := [.sed, .cld, .plp, .rti]

/-- R25, line B. -/
def writersOfB : List Mnemonic := [.brk, .plp, .rti]

/-- R25, line V. -/
def writersOfV : List Mnemonic := [.adc, .sbc, .bit, .clv, .plp, .rti]

/-- R32, column "written by", line A; the shifts and rotates write it in their Accumulator form only. -/
def writesA (f : Form) : Bool :=
  [Mnemonic.lda, .pla, .txa, .tya, .adc, .sbc, .and, .ora, .eor].contains f.mnemonic || f.mode == .accumulator

/-- R32, line X. -/
def writersOfX : List Mnemonic := [.ldx, .tax, .tsx, .inx, .dex]

/-- R32, line Y. -/
def writersOfY : List Mnemonic := [.ldy, .tay, .iny, .dey]

/-- R32, line SP. -/
def writersOfSP : List Mnemonic := [.txs, .pha, .php, .pla, .plp, .jsr, .rts, .brk, .rti]

/-- R32, line PC: written otherwise than by the fetch. A branch writes it when taken. -/
def writersOfPC : List Mnemonic :=
  [.bcc, .bcs, .beq, .bne, .bmi, .bpl, .bvc, .bvs, .jmp, .jsr, .rts, .brk, .rti]

/-- The instructions with a memory write in 20_memory.md R56; the shifts and rotates write in their memory forms only. -/
def writesMemory (f : Form) : Bool :=
  [Mnemonic.sta, .stx, .sty, .inc, .dec, .jsr, .pha, .php, .brk].contains f.mnemonic ||
  ([Mnemonic.asl, .lsr, .rol, .ror].contains f.mnemonic && f.mode != .accumulator)

/-- The byte N and Z describe after an instruction that leaves its result in a register or in memory (R26, R29): the register
it names, or the byte of its last transaction, which for a read-modify-write instruction is the write of the result.
`none` for the compares, whose difference is stored nowhere, and for the others. -/
def resultByte (f : Form) (t : State) : Option Byte :=
  match f.mnemonic with
  | .lda | .txa | .tya | .pla | .adc | .sbc | .and | .ora | .eor => some t.a
  | .ldx | .tax | .tsx | .inx | .dex => some t.x
  | .ldy | .tay | .iny | .dey => some t.y
  | .asl | .lsr | .rol | .ror | .inc | .dec =>
    if f.mode = .accumulator then some t.a
    else match t.trace.getLast? with
      | some (.write _ val) => some val
      | _ => none
  | _ => none

/-! ## Shapes of an instruction's statement

Each gives the bytes the core fetches for the form (opcode, then operand bytes), and says that `exec` answers a next state and
which. `result` and its like are written out in each statement; the record updates leave every field they do not name
as it was. -/

/-- A form without operand bytes. -/
def ImpliedForm (opcode : Byte) (i : Instr) (cycles : Nat) (result : State → State) : Prop :=
  fetchedBytes i = [opcode] ∧ ∀ s : State, exec i s = .next (result { s with cyc := s.cyc + cycles })

/-- The Immediate form: the operand byte is the value, no transaction beyond the fetch, 2 cycles. -/
def ImmediateForm (f : Byte × (Byte → Instr)) (result : Byte → State → State) : Prop :=
  ∀ imm : Byte, fetchedBytes (f.2 imm) = [f.1, imm] ∧
    ∀ s : State, exec (f.2 imm) s = .next (result imm { s with cyc := s.cyc + 2 })

/-- A form with one operand byte that names a memory address by a mode. -/
def ByteForm (f : Byte × (Byte → Instr)) (mode : Byte → MemMode) (effect : Instr → MemMode → Prop) : Prop :=
  ∀ zp : Byte, fetchedBytes (f.2 zp) = [f.1, zp] ∧ effect (f.2 zp) (mode zp)

/-- A form with two operand bytes, low byte first. -/
def WordForm (f : Byte × (Word → Instr)) (mode : Word → MemMode) (effect : Instr → MemMode → Prop) : Prop :=
  ∀ addr : Word, fetchedBytes (f.2 addr) = [f.1, loByte addr, hiByte addr] ∧ effect (f.2 addr) (mode addr)

/-- Reading: after the resolver's transactions one read at the effective address, and `result` of the byte; the base cycles,
and one more on a page cross if the opcode has the penalty. -/
def Reads (base : Nat) (penalty : Bool) (result : Byte → State → State) (i : Instr) (mode : MemMode) : Prop :=
  ∀ s : State,
    let p := (resolve mode s).1
    let m := s.mem.read p.ea
    exec i s = .next (result m { s with
      trace := (resolve mode s).2.trace ++ [.read p.ea m]
      cyc := s.cyc + (base + if penalty && p.crossed then 1 else 0) })

/-- Storing: after the resolver's transactions one write at the effective address; nothing else changes. -/
def Stores (base : Nat) (value : State → Byte) (i : Instr) (mode : MemMode) : Prop :=
  ∀ s : State,
    let p := (resolve mode s).1
    ∃ mem' : Memory,
      exec i s = .next { s with
        mem := mem'
        trace := (resolve mode s).2.trace ++ [.write p.ea (value s)]
        cyc := s.cyc + base } ∧
      BytesChanged s.mem mem' [(p.ea, value s)]

/-- Reading, changing and writing back: one read and one write at the effective address; `flags` of the old byte. -/
def Changes (base : Nat) (new : Byte → State → Byte) (flags : Byte → State → State) (i : Instr) (mode : MemMode) :
    Prop :=
  ∀ s : State,
    let p := (resolve mode s).1
    let m := s.mem.read p.ea
    ∃ mem' : Memory,
      exec i s = .next { flags m s with
        mem := mem'
        trace := (resolve mode s).2.trace ++ [.read p.ea m, .write p.ea (new m s)]
        cyc := s.cyc + base } ∧
      BytesChanged s.mem mem' [(p.ea, new m s)]

/-- The eight forms of LDA, ADC, SBC, AND, ORA, EOR and CMP, with the cycles of 70_reset_and_hazards.md R253. -/
def ReadsInEightModes (imm zp zpX : Byte × (Byte → Instr)) (abs absX absY : Byte × (Word → Instr))
    (indX indY : Byte × (Byte → Instr)) (result : Byte → State → State) : Prop :=
  ImmediateForm imm result ∧
  ByteForm zp .zeroPage (Reads 3 false result) ∧ ByteForm zpX .zeroPageX (Reads 4 false result) ∧
  WordForm abs .absolute (Reads 4 false result) ∧ WordForm absX .absoluteX (Reads 4 true result) ∧
  WordForm absY .absoluteY (Reads 4 true result) ∧
  ByteForm indX .indexedIndirect (Reads 6 false result) ∧ ByteForm indY .indirectIndexed (Reads 5 true result)

/-- The four memory forms of INC, DEC, ASL, LSR, ROL and ROR, with their cycles; none pays for a page cross. -/
def ChangesInFourModes (zp zpX : Byte × (Byte → Instr)) (abs absX : Byte × (Word → Instr))
    (new : Byte → State → Byte) (flags : Byte → State → State) : Prop :=
  ByteForm zp .zeroPage (Changes 5 new flags) ∧ ByteForm zpX .zeroPageX (Changes 6 new flags) ∧
  WordForm abs .absolute (Changes 6 new flags) ∧ WordForm absX .absoluteX (Changes 7 new flags)

/-- The five forms of a shift or rotate (R140): the Accumulator form changes A in 2 cycles with no transaction. -/
def ShiftsInFiveModes (acc : Byte × Instr) (zp zpX : Byte × (Byte → Instr)) (abs absX : Byte × (Word → Instr))
    (new : Byte → State → Byte) (flags : Byte → State → State) : Prop :=
  ImpliedForm acc.1 acc.2 2 (fun s => { flags s.a s with a := new s.a s }) ∧
  ChangesInFourModes zp zpX abs absX new flags

/-- A branch (46_branch.md R160): 2 cycles and PC past the displacement when the condition fails; the target and 3 cycles, or 4
across a page, when it holds. -/
def Branches (f : Byte × (Byte → Instr)) (cond : State → Bool) : Prop :=
  ∀ disp : Byte, fetchedBytes (f.2 disp) = [f.1, disp] ∧
    ∀ s : State,
      (cond s = false → exec (f.2 disp) s = .next { s with cyc := s.cyc + 2 }) ∧
      (cond s = true → exec (f.2 disp) s = .next { s with
        pc := (relativeTarget disp s).ea
        cyc := s.cyc + if (relativeTarget disp s).crossed then 4 else 3 })

end Sys2Proof.Safety
end

