-- ==== Sys2Proof/Certificates/Slice0/Obligations.lean ====
section
/-! DEFINITION. The statements for the provers, in the order of OBLIGATIONS.json. Shapes and predicates are in
Sys2Proof/Safety.lean. A rule that marks its own content "from general knowledge" or as a decision D<n> is followed as the
rule it is (log entry 7). -/

open Sys2Proof Sys2Proof.Machine Sys2Proof.Safety

/-! ## Encoding -/

/-- One word of each format, written out from R61 and the opcode map of R65, decodes to the instruction it stands for. -/
def Obligations.WordsOfTheOpcodeMapDecode : Prop :=
  decode [0xAA#8] = .ok .tax ∧ decode [0x0A#8] = .ok .aslAcc ∧
  decode [0xA9#8, 0x10#8] = .ok (.ldaImm 0x10#8) ∧ decode [0x85#8, 0x10#8] = .ok (.staZp 0x10#8) ∧
  decode [0x75#8, 0x10#8] = .ok (.adcZpX 0x10#8) ∧ decode [0xB6#8, 0x10#8] = .ok (.ldxZpY 0x10#8) ∧
  decode [0xEE#8, 0x34#8, 0x12#8] = .ok (.incAbs 0x1234#16) ∧
  decode [0x3D#8, 0xF0#8, 0x02#8] = .ok (.andAbsX 0x02F0#16) ∧
  decode [0xD9#8, 0x01#8, 0x02#8] = .ok (.cmpAbsY 0x0201#16) ∧
  decode [0x6C#8, 0xFF#8, 0x02#8] = .ok (.jmpInd 0x02FF#16) ∧
  decode [0x41#8, 0x20#8] = .ok (.eorIndX 0x20#8) ∧ decode [0x91#8, 0x10#8] = .ok (.staIndY 0x10#8) ∧
  decode [0xD0#8, 0xED#8] = .ok (.bne 0xED#8) ∧ decode [0x48#8] = .ok .pha ∧ decode [0x00#8] = .ok .brk

/-- Decoding an encoded instruction gives it back, with every operand at every value, whatever bytes follow. -/
def Obligations.DecodeOfEncodeIsTheInstruction : Prop :=
  ∀ (i : Instr) (rest : List Byte), decode (encode i ++ rest) = .ok i

/-- Whatever decodes begins with the bytes of the instruction it decodes to: no two instructions share bytes, and no
undefined byte is taken for a defined one. -/
def Obligations.DecodedBytesBeginWithTheEncoding : Prop :=
  ∀ (bytes : List Byte) (i : Instr), decode bytes = .ok i → ∃ rest, bytes = fetchedBytes i ++ rest

/-- R68's list of the 105 undefined opcode bytes. -/
def Sys2Proof.undefinedOpcodes : List Nat :=
  [0x02, 0x03, 0x04, 0x07, 0x0B, 0x0C, 0x0F, 0x12, 0x13, 0x14, 0x17, 0x1A, 0x1B, 0x1C, 0x1F] ++
  [0x22, 0x23, 0x27, 0x2B, 0x2F, 0x32, 0x33, 0x34, 0x37, 0x3A, 0x3B, 0x3C, 0x3F] ++
  [0x42, 0x43, 0x44, 0x47, 0x4B, 0x4F, 0x52, 0x53, 0x54, 0x57, 0x5A, 0x5B, 0x5C, 0x5F] ++
  [0x62, 0x63, 0x64, 0x67, 0x6B, 0x6F, 0x72, 0x73, 0x74, 0x77, 0x7A, 0x7B, 0x7C, 0x7F] ++
  [0x80, 0x82, 0x83, 0x87, 0x89, 0x8B, 0x8F, 0x92, 0x93, 0x97, 0x9B, 0x9C, 0x9E, 0x9F] ++
  [0xA3, 0xA7, 0xAB, 0xAF, 0xB2, 0xB3, 0xB7, 0xBB, 0xBF] ++
  [0xC2, 0xC3, 0xC7, 0xCB, 0xCF, 0xD2, 0xD3, 0xD4, 0xD7, 0xDA, 0xDB, 0xDC, 0xDF] ++
  [0xE2, 0xE3, 0xE7, 0xEB, 0xEF, 0xF2, 0xF3, 0xF4, 0xF7, 0xFA, 0xFB, 0xFC, 0xFF]

/-- The decoder refuses exactly the 105 opcode bytes of R68, by the byte, whatever follows. -/
def Obligations.DecoderRefusesExactlyTheUndefinedOpcodes : Prop :=
  undefinedOpcodes.length = 105 ∧
  ∀ (opcode : Byte) (rest : List Byte),
    decode (opcode :: rest) = .error (.undefinedOpcode opcode) ↔ opcode.toNat ∈ undefinedOpcodes

/-- The encoding of an instruction is as long as its format (R61): one byte more than its mode's operand bytes, and two for
BRK, whose second byte the core never fetches (R71). -/
def Obligations.EncodingLengthsFollowTheFormats : Prop :=
  ∀ i : Instr, (encode i).length = i.length ∧ i.wellFormed = true ∧
    (fetchedBytes i).length = 1 + i.form.mode.operandBytes ∧ (i.length = 1 ∨ i.length = 2 ∨ i.length = 3)

/-! ## The step -/

/-- When the bytes at PC are those of an instruction, a running step is `exec` of it on the state with PC past them, their
reads recorded in order, and the earlier step's record in the history. -/
def Obligations.StepRunsTheDecodedInstruction : Prop :=
  ∀ (i : Instr) (s : State), s.run = .running → BytesAt s.mem s.pc (fetchedBytes i) →
    step s = exec i { s with
      pc := s.pc + BitVec.ofNat 16 (fetchedBytes i).length
      history := s.history ++ s.trace
      trace := fetchReads s.pc (fetchedBytes i) }

/-- The illegal-opcode fault (R211): an undefined byte at PC faults, recording the byte and its address; RUN is `Faulted`, PC is
one past, one read was issued and nothing else has changed; nothing else faults; and no step is enabled afterwards. The model's
readings in it: the fault carries the state it leaves (log entry 5), with PC one past the byte (log entry 20) and the earlier record
in the history (log entry 4), and a step that is not enabled is refused as `notRunning` (log entry 6). -/
def Obligations.UndefinedOpcodeFaultsAndNothingElseDoes : Prop :=
  (∀ s : State, s.run = .running → (s.mem.read s.pc).toNat ∈ undefinedOpcodes →
    step s = .fault (.illegalOpcode (s.mem.read s.pc) s.pc { s with
      pc := s.pc + 1#16
      run := .faulted (s.mem.read s.pc) s.pc
      trace := [.read s.pc (s.mem.read s.pc)]
      history := s.history ++ s.trace })) ∧
  (∀ (s : State) (f : Fault), step s = .fault f → (s.mem.read s.pc).toNat ∈ undefinedOpcodes) ∧
  (∀ (s : State) (opcode : Byte) (addr : Word), s.run = .faulted opcode addr →
    step s = .refused (.notRunning (.faulted opcode addr)))

/-- A running machine always has a step: it completes and is still running, or it is the one fault (R210, R216).
That the record of the step before joins the history is the model's own (log entry 4). -/
def Obligations.RunningStepCompletesUnlessTheOpcodeIsUndefined : Prop :=
  ∀ s : State, s.run = .running → (s.mem.read s.pc).toNat ∉ undefinedOpcodes →
    ∃ t, step s = .next t ∧ t.run = .running ∧ t.history = s.history ++ s.trace ∧
      t.trace.head? = some (.read s.pc (s.mem.read s.pc))

/-- Outside `Running` no step is enabled: it is refused under that name (R34; log entry 6). -/
def Obligations.StepIsEnabledOnlyInRunning : Prop :=
  ∀ s : State, s.run ≠ .running ↔ step s = .refused (.notRunning s.run)

/-! ## Reset -/

/-- Reset (R240) loads every register from any state, whatever its run status, and leaves memory alone. -/
def Obligations.ResetLoadsTheDocumentedValues : Prop :=
  ∀ (entry : Word) (s : State),
    applyReset entry s =
      { s with
        a := 0x00#8, x := 0x00#8, y := 0x00#8, sp := 0xFD#8, pc := entry
        c := false, z := false, i := true, d := false, b := false, v := false, n := false
        cyc := 0, run := .running, trace := [], history := [] } ∧
    statusByte (applyReset entry s) = 0x24#8

/-- The model's choice for the two open parameters of `State.reset`: `ENTRY_PC` is 0x0000 (log entry 2) and every byte of memory
reads 0x00 (log entry 1). Neither is a rule of the spec. -/
def Obligations.StateResetTakesTheModelsEntryAndEmptyMemory : Prop :=
  State.reset = State.resetWith 0x0000#16 [] ∧ ∀ addr : Word, State.reset.mem.read addr = 0x00#8

/-! ## Fetching operands and resolving addresses -/

/-- `Fetch8()` (R69): the byte at PC, one read, PC plus one modulo 65536. -/
def Obligations.FetchReadsTheByteAtPcAndAdvances : Prop :=
  ∀ s : State,
    fetch8 s = (s.mem.read s.pc, { s with
      pc := s.pc + 1#16, trace := s.trace ++ [.read s.pc (s.mem.read s.pc)] }) ∧
    (fetch8 s).2.pc.toNat = (s.pc.toNat + 1) % 65536

/-- The page-zero modes (R84 to R86): the address is the byte, or the byte plus the index modulo 256, in page zero; no page cross
and no transaction. -/
def Obligations.ZeroPageModesStayInPageZero : Prop :=
  ∀ (zp : Byte) (s : State),
    (resolve (.zeroPage zp) s).1.ea.toNat = zp.toNat ∧
    (resolve (.zeroPageX zp) s).1.ea.toNat = (zp.toNat + s.x.toNat) % 256 ∧
    (resolve (.zeroPageY zp) s).1.ea.toNat = (zp.toNat + s.y.toNat) % 256 ∧
    ∀ mode ∈ [MemMode.zeroPage zp, .zeroPageX zp, .zeroPageY zp],
      (resolve mode s).1.crossed = false ∧ (resolve mode s).2 = s

/-- The absolute modes (R87 to R89): the address, or the address plus the index modulo 65536; a page cross is reported exactly when
the addition changes the high byte; no transaction. -/
def Obligations.AbsoluteModesAddTheIndexAndReportPageCrosses : Prop :=
  ∀ (addr : Word) (s : State),
    resolve (.absolute addr) s = (⟨addr, false⟩, s) ∧
    (∀ pair ∈ [(MemMode.absoluteX addr, s.x), (.absoluteY addr, s.y)],
      (resolve pair.1 s).2 = s ∧
      (resolve pair.1 s).1.ea.toNat = (addr.toNat + pair.2.toNat) % 65536 ∧
      ((resolve pair.1 s).1.crossed = true ↔ 256 ≤ addr.toNat % 256 + pair.2.toNat))

/-- The Indirect mode (R90): the target's low byte is read at the pointer, its high byte at the next address in the same page. -/
def Obligations.IndirectPointerWrapsInItsPage : Prop :=
  ∀ (ptr : Word) (s : State),
    let next : Word := BitVec.ofNat 16 (ptr.toNat / 256 * 256 + (ptr.toNat % 256 + 1) % 256)
    let lo := s.mem.read ptr
    let hi := s.mem.read next
    (resolve (.indirect ptr) s).2 = { s with trace := s.trace ++ [.read ptr lo, .read next hi] } ∧
    (resolve (.indirect ptr) s).1.crossed = false ∧
    (resolve (.indirect ptr) s).1.ea.toNat = hi.toNat * 256 + lo.toNat

/-- The two page-zero pointer modes (R91, R92): both pointer bytes come from page zero, low byte first; `(zp,X)` adds X to the
pointer's address, `(zp),Y` adds Y to the pointer and reports a page cross when that changes the high byte. -/
def Obligations.PageZeroPointersWrapInPageZero : Prop :=
  ∀ (zp : Byte) (s : State),
    (let p : Word := BitVec.ofNat 16 ((zp.toNat + s.x.toNat) % 256)
     let q : Word := BitVec.ofNat 16 ((zp.toNat + s.x.toNat + 1) % 256)
     let lo := s.mem.read p
     let hi := s.mem.read q
     (resolve (.indexedIndirect zp) s).2 = { s with trace := s.trace ++ [.read p lo, .read q hi] } ∧
     (resolve (.indexedIndirect zp) s).1.crossed = false ∧
     (resolve (.indexedIndirect zp) s).1.ea.toNat = hi.toNat * 256 + lo.toNat) ∧
    (let p : Word := BitVec.ofNat 16 zp.toNat
     let q : Word := BitVec.ofNat 16 ((zp.toNat + 1) % 256)
     let lo := s.mem.read p
     let hi := s.mem.read q
     (resolve (.indirectIndexed zp) s).2 = { s with trace := s.trace ++ [.read p lo, .read q hi] } ∧
     (resolve (.indirectIndexed zp) s).1.ea.toNat = (hi.toNat * 256 + lo.toNat + s.y.toNat) % 65536 ∧
     ((resolve (.indirectIndexed zp) s).1.crossed = true ↔ 256 ≤ lo.toNat + s.y.toNat))

/-- The Relative mode (R93): the target is PC past the displacement plus the signed displacement modulo 65536; the page cross
compares the two high bytes. -/
def Obligations.RelativeTargetIsSignedFromPcAfterOperand : Prop :=
  ∀ (disp : Byte) (s : State),
    ((relativeTarget disp s).ea.toNat : Int) =
      ((s.pc.toNat : Int) + (if disp.toNat < 128 then (disp.toNat : Int) else (disp.toNat : Int) - 256)) % 65536 ∧
    ((relativeTarget disp s).crossed = true ↔ (relativeTarget disp s).ea.toNat / 256 ≠ s.pc.toNat / 256)

/-! ## The stack -/

/-- `Push` and `Pull` (R180, R181): a push writes at 0x0100 + SP and then decrements SP modulo 256; a pull increments SP modulo 256
and then reads there, and leaves memory as it is. -/
def Obligations.PushWritesThenDecrementsAndPullIncrementsThenReads : Prop :=
  (∀ sp : Byte, (stackAddr sp).toNat = 0x0100 + sp.toNat) ∧
  (∀ (val : Byte) (s : State), ∃ mem',
    push val s = { s with
      mem := mem', sp := s.sp - 1#8, trace := s.trace ++ [.write (stackAddr s.sp) val] } ∧
    BytesChanged s.mem mem' [(stackAddr s.sp, val)]) ∧
  (∀ s : State,
    let m := s.mem.read (stackAddr (s.sp + 1#8))
    pull s = (m, { s with sp := s.sp + 1#8, trace := s.trace ++ [.read (stackAddr (s.sp + 1#8)) m] }))

/-! ## Loads, stores, transfers -/

/-- LDA (R100), all eight forms. -/
def Obligations.LdaLoadsAAndSetsNZ : Prop :=
  ReadsInEightModes (0xA9#8, .ldaImm) (0xA5#8, .ldaZp) (0xB5#8, .ldaZpX) (0xAD#8, .ldaAbs) (0xBD#8, .ldaAbsX)
    (0xB9#8, .ldaAbsY) (0xA1#8, .ldaIndX) (0xB1#8, .ldaIndY)
    (fun m s => { s with a := m, n := m.getLsbD 7, z := m == 0x00#8 })

/-- LDX (R101) and LDY (R102), all five forms of each. -/
def Obligations.LdxLdyLoadTheIndexAndSetNZ : Prop :=
  (let result : Byte → State → State := fun m s => { s with x := m, n := m.getLsbD 7, z := m == 0x00#8 }
   ImmediateForm (0xA2#8, .ldxImm) result ∧
   ByteForm (0xA6#8, .ldxZp) .zeroPage (Reads 3 false result) ∧
   ByteForm (0xB6#8, .ldxZpY) .zeroPageY (Reads 4 false result) ∧
   WordForm (0xAE#8, .ldxAbs) .absolute (Reads 4 false result) ∧
   WordForm (0xBE#8, .ldxAbsY) .absoluteY (Reads 4 true result)) ∧
  (let result : Byte → State → State := fun m s => { s with y := m, n := m.getLsbD 7, z := m == 0x00#8 }
   ImmediateForm (0xA0#8, .ldyImm) result ∧
   ByteForm (0xA4#8, .ldyZp) .zeroPage (Reads 3 false result) ∧
   ByteForm (0xB4#8, .ldyZpX) .zeroPageX (Reads 4 false result) ∧
   WordForm (0xAC#8, .ldyAbs) .absolute (Reads 4 false result) ∧
   WordForm (0xBC#8, .ldyAbsX) .absoluteX (Reads 4 true result))

/-- STA (R103), STX (R104) and STY (R105), every form: one byte of memory changes and nothing else does. -/
def Obligations.StoresWriteOneByteAndNothingElse : Prop :=
  (ByteForm (0x85#8, .staZp) .zeroPage (Stores 3 State.a) ∧
   ByteForm (0x95#8, .staZpX) .zeroPageX (Stores 4 State.a) ∧
   WordForm (0x8D#8, .staAbs) .absolute (Stores 4 State.a) ∧
   WordForm (0x9D#8, .staAbsX) .absoluteX (Stores 5 State.a) ∧
   WordForm (0x99#8, .staAbsY) .absoluteY (Stores 5 State.a) ∧
   ByteForm (0x81#8, .staIndX) .indexedIndirect (Stores 6 State.a) ∧
   ByteForm (0x91#8, .staIndY) .indirectIndexed (Stores 6 State.a)) ∧
  (ByteForm (0x86#8, .stxZp) .zeroPage (Stores 3 State.x) ∧
   ByteForm (0x96#8, .stxZpY) .zeroPageY (Stores 4 State.x) ∧
   WordForm (0x8E#8, .stxAbs) .absolute (Stores 4 State.x)) ∧
  (ByteForm (0x84#8, .styZp) .zeroPage (Stores 3 State.y) ∧
   ByteForm (0x94#8, .styZpX) .zeroPageX (Stores 4 State.y) ∧
   WordForm (0x8C#8, .styAbs) .absolute (Stores 4 State.y))

/-- The transfers (R106 to R111): the byte copied sets N and Z, but for TXS, which writes SP and no flag. -/
def Obligations.TransfersCopyAndSetNZExceptTxs : Prop :=
  ImpliedForm 0xAA#8 .tax 2 (fun s => { s with x := s.a, n := s.a.getLsbD 7, z := s.a == 0x00#8 }) ∧
  ImpliedForm 0xA8#8 .tay 2 (fun s => { s with y := s.a, n := s.a.getLsbD 7, z := s.a == 0x00#8 }) ∧
  ImpliedForm 0x8A#8 .txa 2 (fun s => { s with a := s.x, n := s.x.getLsbD 7, z := s.x == 0x00#8 }) ∧
  ImpliedForm 0x98#8 .tya 2 (fun s => { s with a := s.y, n := s.y.getLsbD 7, z := s.y == 0x00#8 }) ∧
  ImpliedForm 0xBA#8 .tsx 2 (fun s => { s with x := s.sp, n := s.sp.getLsbD 7, z := s.sp == 0x00#8 }) ∧
  ImpliedForm 0x9A#8 .txs 2 (fun s => { s with sp := s.x })

/-! ## Arithmetic -/

/-- ADC (R123), all eight forms, with the binary sum written out (R120) and the decimal one by `addDecimal` (R121).
V with D set (D8) and the value of `addDecimal` on nibbles above 9 (D7) are the spec's decisions, which the model follows (log entry
8). -/
def Obligations.AdcAddsWithCarryInBothModes : Prop :=
  ReadsInEightModes (0x69#8, .adcImm) (0x65#8, .adcZp) (0x75#8, .adcZpX) (0x6D#8, .adcAbs) (0x7D#8, .adcAbsX)
    (0x79#8, .adcAbsY) (0x61#8, .adcIndX) (0x71#8, .adcIndY)
    (fun m s =>
      let sum := s.a.toNat + m.toNat + s.c.toNat
      let rb : Byte := BitVec.ofNat 8 (sum % 256)
      let r := if s.d then (addDecimal s.a m s.c).1 else rb
      { s with
        a := r
        c := if s.d then (addDecimal s.a m s.c).2 else decide (256 ≤ sum)
        v := decide (s.a.getLsbD 7 = m.getLsbD 7 ∧ rb.getLsbD 7 ≠ s.a.getLsbD 7)
        n := r.getLsbD 7
        z := r == 0x00#8 })

/-- SBC (R124), all eight forms: C before is "no borrow in", C after is "no borrow needed" in both modes; V is the overflow of the
binary difference in both modes. C and V with D set (D8) and the value of `subDecimal` on nibbles above 9 (D7) are the spec's
decisions, which the model follows (log entry 8); so is the sense of the borrow (D9, log entry 7). -/
def Obligations.SbcSubtractsWithBorrowInBothModes : Prop :=
  ReadsInEightModes (0xE9#8, .sbcImm) (0xE5#8, .sbcZp) (0xF5#8, .sbcZpX) (0xED#8, .sbcAbs) (0xFD#8, .sbcAbsX)
    (0xF9#8, .sbcAbsY) (0xE1#8, .sbcIndX) (0xF1#8, .sbcIndY)
    (fun m s =>
      let borrow := 1 - s.c.toNat
      let rb : Byte := BitVec.ofNat 8 ((256 + s.a.toNat - m.toNat - borrow) % 256)
      let r := if s.d then subDecimal s.a m s.c else rb
      { s with
        a := r
        c := decide (m.toNat + borrow ≤ s.a.toNat)
        v := decide (s.a.getLsbD 7 ≠ m.getLsbD 7 ∧ rb.getLsbD 7 ≠ s.a.getLsbD 7)
        n := r.getLsbD 7
        z := r == 0x00#8 })

/-- `AddBinary` (R120): the byte, the carry, and the overflow in the rule's three forms. -/
def Obligations.AddBinaryCarryAndOverflowMeanWhatTheySay : Prop :=
  ∀ (a m : Byte) (c : Bool),
    let s := a.toNat + m.toNat + c.toNat
    (addBinary a m c).r.toNat = s % 256 ∧
    ((addBinary a m c).carry = true ↔ 256 ≤ s) ∧
    ((addBinary a m c).overflow = true ↔
      a.getLsbD 7 = m.getLsbD 7 ∧ (addBinary a m c).r.getLsbD 7 ≠ a.getLsbD 7) ∧
    (addBinary a m c).overflow =
      ((a ^^^ (addBinary a m c).r) &&& (m ^^^ (addBinary a m c).r)).getLsbD 7 ∧
    ((addBinary a m c).overflow = true ↔
      a.toInt + m.toInt + (c.toNat : Int) < -128 ∨ 127 < a.toInt + m.toInt + (c.toNat : Int)) ∧
    addBinary 0xFF#8 0x01#8 false = ⟨0x00#8, true, false⟩

/-- `AddDecimal` on valid BCD operands is decimal addition: the sum modulo 100 in BCD, and the carry (what R121 says its
description forces). -/
def Obligations.AddDecimalIsDecimalAdditionOnValidBcd : Prop :=
  ∀ (a m : Byte) (c : Bool), ValidBcd a → ValidBcd m →
    ValidBcd (addDecimal a m c).1 ∧
    bcdValue (addDecimal a m c).1 = (bcdValue a + bcdValue m + c.toNat) % 100 ∧
    ((addDecimal a m c).2 = true ↔ 100 ≤ bcdValue a + bcdValue m + c.toNat)

/-- `SubDecimal` on valid BCD operands is decimal subtraction modulo 100, and the binary carry of SBC says "no decimal
borrow" (what R122 says of both). -/
def Obligations.SubDecimalIsDecimalSubtractionOnValidBcd : Prop :=
  ∀ (a m : Byte) (c : Bool), ValidBcd a → ValidBcd m →
    ValidBcd (subDecimal a m c) ∧
    (bcdValue (subDecimal a m c) : Int) = ((bcdValue a : Int) - bcdValue m - (1 - (c.toNat : Int))) % 100 ∧
    ((addBinary a (m ^^^ 0xFF#8) c).carry = true ↔ bcdValue m + (1 - c.toNat) ≤ bcdValue a)

/-! ## Logic and compare -/

/-- AND (R150), ORA (R151) and EOR (R152), all eight forms of each. -/
def Obligations.AndOraEorCombineWithA : Prop :=
  ReadsInEightModes (0x29#8, .andImm) (0x25#8, .andZp) (0x35#8, .andZpX) (0x2D#8, .andAbs) (0x3D#8, .andAbsX)
    (0x39#8, .andAbsY) (0x21#8, .andIndX) (0x31#8, .andIndY)
    (fun m s => { s with a := s.a &&& m, n := (s.a &&& m).getLsbD 7, z := (s.a &&& m) == 0x00#8 }) ∧
  ReadsInEightModes (0x09#8, .oraImm) (0x05#8, .oraZp) (0x15#8, .oraZpX) (0x0D#8, .oraAbs) (0x1D#8, .oraAbsX)
    (0x19#8, .oraAbsY) (0x01#8, .oraIndX) (0x11#8, .oraIndY)
    (fun m s => { s with a := s.a ||| m, n := (s.a ||| m).getLsbD 7, z := (s.a ||| m) == 0x00#8 }) ∧
  ReadsInEightModes (0x49#8, .eorImm) (0x45#8, .eorZp) (0x55#8, .eorZpX) (0x4D#8, .eorAbs) (0x5D#8, .eorAbsX)
    (0x59#8, .eorAbsY) (0x41#8, .eorIndX) (0x51#8, .eorIndY)
    (fun m s => { s with a := s.a ^^^ m, n := (s.a ^^^ m).getLsbD 7, z := (s.a ^^^ m) == 0x00#8 })

/-- CMP, CPX and CPY (R153 to R156), every form: C is `r >= m` unsigned, N and Z describe the low byte of the difference; the
register, V and memory stay, and neither C nor D is read. -/
def Obligations.ComparesSetCZNAndKeepTheRegister : Prop :=
  let result : (State → Byte) → Byte → State → State := fun reg m s =>
    let diff : Byte := BitVec.ofNat 8 ((256 + (reg s).toNat - m.toNat) % 256)
    { s with
      c := decide (m.toNat ≤ (reg s).toNat)
      n := diff.getLsbD 7
      z := diff == 0x00#8 }
  ReadsInEightModes (0xC9#8, .cmpImm) (0xC5#8, .cmpZp) (0xD5#8, .cmpZpX) (0xCD#8, .cmpAbs) (0xDD#8, .cmpAbsX)
    (0xD9#8, .cmpAbsY) (0xC1#8, .cmpIndX) (0xD1#8, .cmpIndY) (result State.a) ∧
  (ImmediateForm (0xE0#8, .cpxImm) (result State.x) ∧
   ByteForm (0xE4#8, .cpxZp) .zeroPage (Reads 3 false (result State.x)) ∧
   WordForm (0xEC#8, .cpxAbs) .absolute (Reads 4 false (result State.x))) ∧
  (ImmediateForm (0xC0#8, .cpyImm) (result State.y) ∧
   ByteForm (0xC4#8, .cpyZp) .zeroPage (Reads 3 false (result State.y)) ∧
   WordForm (0xCC#8, .cpyAbs) .absolute (Reads 4 false (result State.y)))

/-! ## Increment, decrement, shift, rotate -/

/-- INC (R130) and DEC (R131), all four forms: the byte plus or minus one modulo 256 is written back; C and V stay. -/
def Obligations.IncDecChangeTheByteInMemory : Prop :=
  let nz : Byte → State → State := fun r s => { s with n := r.getLsbD 7, z := r == 0x00#8 }
  (let new : Byte → Byte := fun m => BitVec.ofNat 8 ((m.toNat + 1) % 256)
   ChangesInFourModes (0xE6#8, .incZp) (0xF6#8, .incZpX) (0xEE#8, .incAbs) (0xFE#8, .incAbsX)
     (fun m _ => new m) (fun m s => nz (new m) s)) ∧
  (let new : Byte → Byte := fun m => BitVec.ofNat 8 ((m.toNat + 255) % 256)
   ChangesInFourModes (0xC6#8, .decZp) (0xD6#8, .decZpX) (0xCE#8, .decAbs) (0xDE#8, .decAbsX)
     (fun m _ => new m) (fun m s => nz (new m) s))

/-- INX, INY, DEX, DEY (R132 to R135): the register plus or minus one modulo 256; N and Z describe it, C and V stay. -/
def Obligations.IndexStepsWrapAndSetNZ : Prop :=
  ImpliedForm 0xE8#8 .inx 2 (fun s =>
    let r : Byte := BitVec.ofNat 8 ((s.x.toNat + 1) % 256)
    { s with x := r, n := r.getLsbD 7, z := r == 0x00#8 }) ∧
  ImpliedForm 0xC8#8 .iny 2 (fun s =>
    let r : Byte := BitVec.ofNat 8 ((s.y.toNat + 1) % 256)
    { s with y := r, n := r.getLsbD 7, z := r == 0x00#8 }) ∧
  ImpliedForm 0xCA#8 .dex 2 (fun s =>
    let r : Byte := BitVec.ofNat 8 ((s.x.toNat + 255) % 256)
    { s with x := r, n := r.getLsbD 7, z := r == 0x00#8 }) ∧
  ImpliedForm 0x88#8 .dey 2 (fun s =>
    let r : Byte := BitVec.ofNat 8 ((s.y.toNat + 255) % 256)
    { s with y := r, n := r.getLsbD 7, z := r == 0x00#8 })

/-- ASL (R141) and LSR (R142), all five forms: the byte doubled modulo 256 with the old bit 7 in C, or halved with the old bit 0 in
C; V stays. -/
def Obligations.AslLsrShiftThroughZero : Prop :=
  (let new : Byte → Byte := fun m => BitVec.ofNat 8 (m.toNat * 2 % 256)
   ShiftsInFiveModes (0x0A#8, .aslAcc) (0x06#8, .aslZp) (0x16#8, .aslZpX) (0x0E#8, .aslAbs) (0x1E#8, .aslAbsX)
     (fun m _ => new m)
     (fun m s => { s with c := m.getLsbD 7, n := (new m).getLsbD 7, z := new m == 0x00#8 })) ∧
  (let new : Byte → Byte := fun m => BitVec.ofNat 8 (m.toNat / 2)
   ShiftsInFiveModes (0x4A#8, .lsrAcc) (0x46#8, .lsrZp) (0x56#8, .lsrZpX) (0x4E#8, .lsrAbs) (0x5E#8, .lsrAbsX)
     (fun m _ => new m)
     (fun m s => { s with c := m.getLsbD 0, n := (new m).getLsbD 7, z := new m == 0x00#8 }))

/-- ROL (R143) and ROR (R144), all five forms: the old C enters at bit 0 or at bit 7, the bit that leaves goes to C; V stays. -/
def Obligations.RolRorRotateThroughCarry : Prop :=
  (let new : Byte → State → Byte := fun m s => BitVec.ofNat 8 (m.toNat * 2 % 256 + s.c.toNat)
   ShiftsInFiveModes (0x2A#8, .rolAcc) (0x26#8, .rolZp) (0x36#8, .rolZpX) (0x2E#8, .rolAbs) (0x3E#8, .rolAbsX)
     new (fun m s => { s with c := m.getLsbD 7, n := (new m s).getLsbD 7, z := new m s == 0x00#8 })) ∧
  (let new : Byte → State → Byte := fun m s => BitVec.ofNat 8 (m.toNat / 2 + s.c.toNat * 128)
   ShiftsInFiveModes (0x6A#8, .rorAcc) (0x66#8, .rorZp) (0x76#8, .rorZpX) (0x6E#8, .rorAbs) (0x7E#8, .rorAbsX)
     new (fun m s => { s with c := m.getLsbD 0, n := (new m s).getLsbD 7, z := new m s == 0x00#8 }))

/-! ## Control transfer -/

/-- The eight branches (R160 to R168): which flag each tests, where it goes, what it costs; nothing else changes. -/
def Obligations.BranchesTestTheirFlag : Prop :=
  Branches (0x90#8, .bcc) (fun s => !s.c) ∧ Branches (0xB0#8, .bcs) (fun s => s.c) ∧
  Branches (0xF0#8, .beq) (fun s => s.z) ∧ Branches (0xD0#8, .bne) (fun s => !s.z) ∧
  Branches (0x30#8, .bmi) (fun s => s.n) ∧ Branches (0x10#8, .bpl) (fun s => !s.n) ∧
  Branches (0x50#8, .bvc) (fun s => !s.v) ∧ Branches (0x70#8, .bvs) (fun s => s.v)

/-- JMP (R170), both forms: PC becomes the effective address, for 3 cycles or, through the pointer, 5. -/
def Obligations.JmpLoadsPcWithTheEffectiveAddress : Prop :=
  let effect : Nat → Instr → MemMode → Prop := fun cycles i mode => ∀ s : State,
    exec i s = .next { s with
      pc := (resolve mode s).1.ea, trace := (resolve mode s).2.trace, cyc := s.cyc + cycles }
  WordForm (0x4C#8, .jmpAbs) .absolute (effect 3) ∧ WordForm (0x6C#8, .jmpInd) .indirect (effect 5)

/-- JSR (R171): the address of its own last byte is pushed, high byte then low byte, and PC becomes the operand. -/
def Obligations.JsrPushesTheAddressOfItsLastByte : Prop :=
  ∀ addr : Word, fetchedBytes (.jsr addr) = [0x20#8, loByte addr, hiByte addr] ∧
    ∀ s : State,
      let ret := s.pc - 1#16
      let first := stackAddr s.sp
      let second := stackAddr (s.sp - 1#8)
      ∃ mem' : Memory,
        exec (.jsr addr) s = .next { s with
          mem := mem', sp := s.sp - 2#8, pc := addr, cyc := s.cyc + 6
          trace := s.trace ++ [.write first (hiByte ret), .write second (loByte ret)] } ∧
        BytesChanged s.mem mem' [(first, hiByte ret), (second, loByte ret)]

/-- RTS (R172): the low byte, then the high byte are pulled, and PC becomes that word plus one modulo 65536. -/
def Obligations.RtsPullsPcAndAddsOne : Prop :=
  fetchedBytes .rts = [0x60#8] ∧
  ∀ s : State,
    let first := stackAddr (s.sp + 1#8)
    let second := stackAddr (s.sp + 2#8)
    let lo := s.mem.read first
    let hi := s.mem.read second
    exec .rts s = .next { s with
      sp := s.sp + 2#8, cyc := s.cyc + 6
      pc := BitVec.ofNat 16 ((hi.toNat * 256 + lo.toNat + 1) % 65536)
      trace := s.trace ++ [.read first lo, .read second hi] }

/-! ## Stack and flag instructions -/

/-- PHA (R182) and PLA (R183). -/
def Obligations.PhaPushesAAndPlaPullsIt : Prop :=
  (fetchedBytes .pha = [0x48#8] ∧
   ∀ s : State, ∃ mem' : Memory,
    exec .pha s = .next { s with
      mem := mem', sp := s.sp - 1#8, cyc := s.cyc + 3, trace := s.trace ++ [.write (stackAddr s.sp) s.a] } ∧
    BytesChanged s.mem mem' [(stackAddr s.sp, s.a)]) ∧
  (fetchedBytes .pla = [0x68#8] ∧
   ∀ s : State,
    let top := stackAddr (s.sp + 1#8)
    let m := s.mem.read top
    exec .pla s = .next { s with
      a := m, n := m.getLsbD 7, z := m == 0x00#8
      sp := s.sp + 1#8, cyc := s.cyc + 4, trace := s.trace ++ [.read top m] })

/-- PHP (R184): the byte pushed has bit 5 set and B as stored. -/
def Obligations.PhpPushesTheStatusWithBAsStored : Prop :=
  fetchedBytes .php = [0x08#8] ∧
  ∀ s : State, ∃ mem' : Memory,
    exec .php s = .next { s with
      mem := mem', sp := s.sp - 1#8, cyc := s.cyc + 3
      trace := s.trace ++ [.write (stackAddr s.sp) (statusByte s)] } ∧
    BytesChanged s.mem mem' [(stackAddr s.sp, statusByte s)] ∧
    (statusByte s).getLsbD 5 = true ∧ (statusByte s).getLsbD 4 = s.b

/-- PLP (R185): the byte pulled loads all seven flags, B among them, and bit 5 goes nowhere; PHP and then PLP leaves every flag,
SP and the other registers as they were. -/
def Obligations.PlpLoadsTheStatusAndUndoesPhp : Prop :=
  (fetchedBytes .plp = [0x28#8] ∧
   ∀ s : State,
    let top := stackAddr (s.sp + 1#8)
    let p := s.mem.read top
    exec .plp s = .next { s with
      n := p.getLsbD 7, v := p.getLsbD 6, b := p.getLsbD 4, d := p.getLsbD 3
      i := p.getLsbD 2, z := p.getLsbD 1, c := p.getLsbD 0
      sp := s.sp + 1#8, cyc := s.cyc + 4, trace := s.trace ++ [.read top p] }) ∧
  ∀ s : State, ∃ t u, exec .php s = .next t ∧ exec .plp t = .next u ∧
    u = { s with mem := u.mem, trace := u.trace, cyc := s.cyc + 7 }

/-- The seven flag instructions (R186 to R192): each changes one flag, in 2 cycles and with no transaction. -/
def Obligations.FlagInstructionsChangeOneFlag : Prop :=
  ImpliedForm 0x18#8 .clc 2 (fun s => { s with c := false }) ∧
  ImpliedForm 0x38#8 .sec 2 (fun s => { s with c := true }) ∧
  ImpliedForm 0x58#8 .cli 2 (fun s => { s with i := false }) ∧
  ImpliedForm 0x78#8 .sei 2 (fun s => { s with i := true }) ∧
  ImpliedForm 0xD8#8 .cld 2 (fun s => { s with d := false }) ∧
  ImpliedForm 0xF8#8 .sed 2 (fun s => { s with d := true }) ∧
  ImpliedForm 0xB8#8 .clv 2 (fun s => { s with v := false })

/-- The status byte (R27, R28, R30): each flag in its bit, bit 5 always 1; unpacking a packed byte gives the flags back, and bit 5
of an unpacked byte makes no difference. -/
def Obligations.StatusByteHoldsTheSevenFlags : Prop :=
  (∀ s : State,
    (statusByte s).getLsbD 7 = s.n ∧ (statusByte s).getLsbD 6 = s.v ∧ (statusByte s).getLsbD 5 = true ∧
    (statusByte s).getLsbD 4 = s.b ∧ (statusByte s).getLsbD 3 = s.d ∧ (statusByte s).getLsbD 2 = s.i ∧
    (statusByte s).getLsbD 1 = s.z ∧ (statusByte s).getLsbD 0 = s.c ∧
    setStatus (statusByte s) s = s) ∧
  ∀ (p : Byte) (s : State),
    statusByte (setStatus p s) = p ||| 0x20#8 ∧ setStatus (p ^^^ 0x20#8) s = setStatus p s

/-! ## BIT, NOP, BRK, RTI -/

/-- BIT (R200), both forms. -/
def Obligations.BitTestsAWithTheByte : Prop :=
  let result : Byte → State → State := fun m s =>
    { s with z := (s.a &&& m) == 0x00#8, n := m.getLsbD 7, v := m.getLsbD 6 }
  ByteForm (0x24#8, .bitZp) .zeroPage (Reads 3 false result) ∧
  WordForm (0x2C#8, .bitAbs) .absolute (Reads 4 false result)

/-- NOP (R201): nothing but 2 cycles. -/
def Obligations.NopChangesNothingButCycles : Prop :=
  ImpliedForm 0xEA#8 .nop 2 (fun s => s)

/-- BRK (R202, R215): PC past the padding byte and the status byte with B set and the old I are pushed; B and I are set; PC is
loaded from 0xFFFE and 0xFFFF; 7 cycles; the five transactions in order; A, X, Y and the other flags stay. -/
def Obligations.BrkTakesTheTrap : Prop :=
  fetchedBytes .brk = [0x00#8] ∧ (encode .brk).length = 2 ∧
  ∀ s : State,
    let ret := s.pc + 1#16
    let p := statusByte { s with b := true }
    let first := stackAddr s.sp
    let second := stackAddr (s.sp - 1#8)
    let third := stackAddr (s.sp - 2#8)
    let lo := s.mem.read 0xFFFE#16
    let hi := s.mem.read 0xFFFF#16
    ∃ mem' : Memory,
      exec .brk s = .next { s with
        mem := mem', sp := s.sp - 3#8, b := true, i := true, cyc := s.cyc + 7
        pc := BitVec.ofNat 16 (hi.toNat * 256 + lo.toNat)
        trace := s.trace ++ [.write first (hiByte ret), .write second (loByte ret), .write third p,
          .read 0xFFFE#16 lo, .read 0xFFFF#16 hi] } ∧
      BytesChanged s.mem mem' [(first, hiByte ret), (second, loByte ret), (third, p)] ∧
      p.getLsbD 5 = true ∧ p.getLsbD 4 = true ∧ p.getLsbD 2 = s.i

/-- RTI (R203, R217): the status byte, then PC's low and high bytes are pulled; all seven flags are loaded and PC is that word, with
nothing added; A, X and Y stay. -/
def Obligations.RtiRestoresFlagsAndPc : Prop :=
  fetchedBytes .rti = [0x40#8] ∧
  ∀ s : State,
    let first := stackAddr (s.sp + 1#8)
    let second := stackAddr (s.sp + 2#8)
    let third := stackAddr (s.sp + 3#8)
    let p := s.mem.read first
    let lo := s.mem.read second
    let hi := s.mem.read third
    exec .rti s = .next { s with
      n := p.getLsbD 7, v := p.getLsbD 6, b := p.getLsbD 4, d := p.getLsbD 3
      i := p.getLsbD 2, z := p.getLsbD 1, c := p.getLsbD 0
      sp := s.sp + 3#8, cyc := s.cyc + 6
      pc := BitVec.ofNat 16 (hi.toNat * 256 + lo.toNat)
      trace := s.trace ++ [.read first p, .read second lo, .read third hi] }

/-! ## Rules of the whole machine -/

/-- Each flag is written by the instructions of R25's table and by no other. -/
def Obligations.OnlyTheListedInstructionsWriteAFlag : Prop :=
  ∀ (i : Instr) (s t : State), exec i s = .next t →
    (i.form.mnemonic ∉ writersOfC → t.c = s.c) ∧ (i.form.mnemonic ∉ writersOfNZ → t.n = s.n ∧ t.z = s.z) ∧
    (i.form.mnemonic ∉ writersOfI → t.i = s.i) ∧ (i.form.mnemonic ∉ writersOfD → t.d = s.d) ∧
    (i.form.mnemonic ∉ writersOfB → t.b = s.b) ∧ (i.form.mnemonic ∉ writersOfV → t.v = s.v)

/-- Each register and memory is written by the instructions of R32's and R56's tables and by no other, RUN and the history by
none. -/
def Obligations.OnlyTheListedInstructionsWriteARegisterOrMemory : Prop :=
  ∀ (i : Instr) (s t : State), exec i s = .next t →
    (writesA i.form = false → t.a = s.a) ∧ (i.form.mnemonic ∉ writersOfX → t.x = s.x) ∧
    (i.form.mnemonic ∉ writersOfY → t.y = s.y) ∧ (i.form.mnemonic ∉ writersOfSP → t.sp = s.sp) ∧
    (i.form.mnemonic ∉ writersOfPC → t.pc = s.pc) ∧ (writesMemory i.form = false → t.mem = s.mem) ∧
    t.run = s.run ∧ t.history = s.history

/-- The N/Z invariant (R26): after an instruction that calls `SetNZ` and leaves its result in a register or in memory, Z says
whether that byte is zero and N is its bit 7, in decimal mode too. (The compares store no result: their statement is
`ComparesSetCZNAndKeepTheRegister`.) -/
def Obligations.NAndZDescribeTheResultByte : Prop :=
  ∀ (i : Instr) (s : State), i.form.mnemonic ∈ callsSetNZ → i.form.mnemonic ∉ [Mnemonic.cmp, .cpx, .cpy] →
    ∃ t r, exec i s = .next t ∧ resultByte i.form t = some r ∧ t.z = decide (r = 0x00#8) ∧ t.n = r.getLsbD 7

/-- A completed step adds its opcode's base count and at most two cycles more, in all at least 2 and at most 7 (R252). -/
def Obligations.EveryStepCostsTwoToSevenCycles : Prop :=
  (∀ s t : State, step s = .next t → s.cyc + 2 ≤ t.cyc ∧ t.cyc ≤ s.cyc + 7) ∧
  ∀ (i : Instr) (s t : State), exec i s = .next t →
    s.cyc + (descriptor i).baseCycles ≤ t.cyc ∧
    (t.cyc ≤ s.cyc + (descriptor i).baseCycles + 1 ∨ i.form.mode = .relative ∧ t.cyc ≤ s.cyc + 4) ∧
    (i.form.mode ≠ .relative → (descriptor i).pageCrossPenalty = false →
      t.cyc = s.cyc + (descriptor i).baseCycles)

/-- The port's record of a step accounts for the memory it leaves: played over the memory before, every read answered what was
there and the writes give the memory after (R48, R51); the record before it went into the history. `trace` and `history` are the
model's own fields (log entry 4). -/
def Obligations.StepRecordReplaysTheMemory : Prop :=
  ∀ s t : State, step s = .next t →
    replay t.trace s.mem = some t.mem ∧ t.history = s.history ++ s.trace ∧
    t.trace.length ≤ 6 ∧ 1 ≤ t.trace.length

/-- The invariant every step keeps: memory canonical, RUN running, and all transactions since the memory was `mem0` account for the
memory as it is (20_memory.md R51: sequential consistency for the one agent). The record of transactions is the model's own (log
entry 4), the canonical form too (log entry 1). -/
def Obligations.EveryStepKeepsTheInvariant : Prop :=
  ∀ (mem0 : Memory) (s t : State), Inv mem0 s → step s = .next t → Inv mem0 t

/-- The invariant holds right after reset, for any entry address and any canonical memory. -/
def Obligations.ResetMeetsTheInvariant : Prop :=
  (∀ (entry : Word) (mem0 : Memory), mem0.wf = true → Inv mem0 (State.resetWith entry mem0)) ∧ Inv [] State.reset

/-- No rule reads the cycle counter or the port's record (R33, R251): from two states that differ only in them a step has the
same outcome, the same transactions and the same cost. -/
def Obligations.CyclesAndHistoryInfluenceNothing : Prop :=
  ∀ s s' : State, SameMachine s s' → SameOutcome s s' (step s) (step s')

/-! ## Round trips -/

/-- BRK then RTI (R203): PC comes back past the padding byte, SP, C, Z, I, D, V and N as before, and B is 1. -/
def Obligations.BrkThenRtiResumesAfterThePadding : Prop :=
  ∀ s : State, ∃ t u, exec .brk s = .next t ∧ exec .rti t = .next u ∧
    u = { s with pc := s.pc + 1#16, b := true, mem := u.mem, trace := u.trace, cyc := s.cyc + 13 }

/-- JSR then RTS (R172): PC comes back to the instruction after the JSR, and SP as before. -/
def Obligations.JsrThenRtsResumesAfterTheCall : Prop :=
  ∀ (addr : Word) (s : State), ∃ t u, exec (.jsr addr) s = .next t ∧ t.pc = addr ∧ exec .rts t = .next u ∧
    u = { s with mem := u.mem, trace := u.trace, cyc := s.cyc + 12 }

/-! ## Run control -/

/-- A run halts exactly when some completed step is the first after which the predicate is true; the final state is the state after
that step with RUN `Halted` (R246, R248). -/
def Obligations.RunHaltsAtTheFirstTrueSample : Prop :=
  ∀ (halt : State → Bool) (fuel : Nat) (s f : State),
    runUntil halt fuel s = .halted f ↔
      ∃ k t, k + 1 ≤ fuel ∧ stepsTo (k + 1) s = some t ∧ halt t = true ∧ f = { t with run := .halted } ∧
        ∀ j u, 1 ≤ j → j ≤ k → stepsTo j s = some u → halt u = false

/-- An end, once reached, does not depend on how many more steps are allowed (R249, R251). -/
def Obligations.MoreStepsDoNotChangeTheEnd : Prop :=
  ∀ (halt : State → Bool) (fuel more : Nat) (s : State),
    (∀ t, runUntil halt fuel s ≠ .notEnded t) → runUntil halt (fuel + more) s = runUntil halt fuel s

/-- After a step that runs BRK, `HaltOnVectorRead` is true (R247). -/
def Obligations.BrkTripsHaltOnVectorRead : Prop :=
  ∀ s : State, s.run = .running → s.mem.read s.pc = 0x00#8 →
    ∃ t, step s = .next t ∧ haltOnVectorRead t = true
end

