-- ==== Sys2Proof/Laws/Memory.lean ====
section
/-! SUPPORT. The laws of memory: a read after a write (in any memory), and the canonical form, which every memory operation
keeps and under which equal reads are equal lists. -/

namespace Sys2Proof.Laws

open Machine Safety

/-! ## Reading after writing -/

theorem readAt_eraseAt (a b : Nat) (m : Memory) :
    Memory.readAt b (Memory.eraseAt a m) = if b = a then Memory.unlisted else Memory.readAt b m := by
  induction m with
  | nil => simp [Memory.eraseAt, Memory.readAt]
  | cons cell rest ih =>
    obtain ⟨k, w⟩ := cell
    by_cases hk : k = a
    · subst hk
      by_cases hb : b = k <;> simp_all [Memory.eraseAt, Memory.readAt]
    · by_cases hb : b = k
      · subst hb
        simp [Memory.eraseAt, Memory.readAt, hk]
      · simp [Memory.eraseAt, Memory.readAt, hk, hb, ih]

theorem readAt_insertAt {a : Nat} {val : Byte} {m : Memory} (h : Memory.readAt a m = Memory.unlisted)
    (habs : ∀ cell ∈ m, cell.1 ≠ a) (b : Nat) :
    Memory.readAt b (Memory.insertAt a val m) = if b = a then val else Memory.readAt b m := by
  induction m with
  | nil => by_cases hb : b = a <;> simp [Memory.insertAt, Memory.readAt, hb]
  | cons cell rest ih =>
    obtain ⟨k, w⟩ := cell
    have hka : k ≠ a := habs (k, w) (by simp)
    have hrest : Memory.readAt a rest = Memory.unlisted := by simpa [Memory.readAt, hka.symm] using h
    have ih := ih hrest (fun cell hc => habs cell (by simp [hc]))
    by_cases hlt : a < k
    · by_cases hb : b = a <;> simp [Memory.insertAt, hlt, Memory.readAt, hb]
    · by_cases hb : b = k
      · subst hb
        simp [Memory.insertAt, hlt, Memory.readAt, hka]
      · simp [Memory.insertAt, hlt, Memory.readAt, hb, ih]

theorem not_mem_eraseAt (a : Nat) (m : Memory) : ∀ cell ∈ Memory.eraseAt a m, cell.1 ≠ a := by
  induction m with
  | nil => simp [Memory.eraseAt]
  | cons cell rest ih =>
    obtain ⟨k, w⟩ := cell
    by_cases hk : k = a
    · simpa [Memory.eraseAt, hk] using ih
    · simpa [Memory.eraseAt, hk] using ih

/-- A read after a write, in every memory. -/
theorem read_write (m : Memory) (a b : Word) (val : Byte) :
    (m.write a val).read b = if b = a then val else m.read b := by
  have hab : (b.toNat = a.toNat) = (b = a) := by rw [BitVec.toNat_inj]
  by_cases hv : val = Memory.unlisted
  · simp [Memory.read, Memory.write, Memory.writeAt, hv, readAt_eraseAt, hab]
  · have h := readAt_insertAt (val := val) (by simp [readAt_eraseAt]) (not_mem_eraseAt a.toNat m) b.toNat
    simp only [Memory.read, Memory.write, Memory.writeAt, hv, if_false, h, readAt_eraseAt, hab]
    by_cases hb : b = a <;> simp [hb]

@[simp] theorem read_write_same (m : Memory) (a : Word) (val : Byte) : (m.write a val).read a = val := by
  simp [read_write]

theorem read_write_ne (m : Memory) {a b : Word} (val : Byte) (h : b ≠ a) : (m.write a val).read b = m.read b := by
  simp [read_write, h]

/-- One write changes one byte, as Safety.lean says it. -/
theorem bytesChanged_write (m : Memory) (a : Word) (val : Byte) : BytesChanged m (m.write a val) [(a, val)] := by
  refine ⟨by simp, fun other h => read_write_ne m val (h (a, val) (by simp))⟩

/-- A further write, at another address, adds its byte. -/
theorem bytesChanged_write_append {m m' : Memory} {cells : List (Word × Byte)} (h : BytesChanged m m' cells) (a : Word)
    (val : Byte) (hne : ∀ cell ∈ cells, cell.1 ≠ a) : BytesChanged m (m'.write a val) (cells ++ [(a, val)]) := by
  refine ⟨fun cell hc => ?_, fun other ho => ?_⟩
  · rcases List.mem_append.1 hc with hc | hc
    · rw [read_write_ne m' val (hne cell hc), h.1 cell hc]
    · simp_all
  · rw [read_write_ne m' val (ho (a, val) (by simp)), h.2 other fun cell hc => ho cell (by simp [hc])]

/-! ## The canonical form -/

theorem wfFrom_mono {m : Memory} {lo lo' : Nat} (h : Memory.wfFrom lo m = true) (hle : lo' ≤ lo) :
    Memory.wfFrom lo' m = true := by
  cases m with
  | nil => rfl
  | cons cell rest =>
    obtain ⟨k, w⟩ := cell
    simp only [Memory.wfFrom, Bool.and_eq_true, decide_eq_true_eq] at h ⊢
    exact ⟨⟨⟨by omega, h.1.1.2⟩, h.1.2⟩, h.2⟩

theorem wfFrom_eraseAt {m : Memory} {lo : Nat} (a : Nat) (h : Memory.wfFrom lo m = true) :
    Memory.wfFrom lo (Memory.eraseAt a m) = true := by
  induction m generalizing lo with
  | nil => rfl
  | cons cell rest ih =>
    obtain ⟨k, w⟩ := cell
    simp only [Memory.wfFrom, Bool.and_eq_true, decide_eq_true_eq] at h
    by_cases hk : k = a
    · simpa [Memory.eraseAt, hk] using wfFrom_mono (ih h.2) (by omega)
    · simp [Memory.eraseAt, hk, Memory.wfFrom, h.1, ih h.2]

theorem wfFrom_insertAt {m : Memory} {lo a : Nat} {val : Byte} (hv : val ≠ Memory.unlisted) (hlo : lo ≤ a)
    (ha : a < 65536) (habs : ∀ cell ∈ m, cell.1 ≠ a) (h : Memory.wfFrom lo m = true) :
    Memory.wfFrom lo (Memory.insertAt a val m) = true := by
  induction m generalizing lo with
  | nil => simp [Memory.insertAt, Memory.wfFrom, hv, hlo, ha]
  | cons cell rest ih =>
    obtain ⟨k, w⟩ := cell
    have hka : k ≠ a := habs (k, w) (by simp)
    simp only [Memory.wfFrom, Bool.and_eq_true, decide_eq_true_eq] at h
    by_cases hlt : a < k
    · have hle : a + 1 ≤ k := hlt
      simp [Memory.insertAt, hlt, Memory.wfFrom, hv, hlo, ha, hle, h.1, h.2]
    · have hle : k + 1 ≤ a := by omega
      simp [Memory.insertAt, hlt, Memory.wfFrom, h.1,
        ih hle (fun cell hc => habs cell (by simp [hc])) h.2]

@[simp] theorem wf_nil : Memory.wf [] = true := rfl

/-- A write keeps the canonical form. -/
@[simp] theorem wf_write {m : Memory} (h : m.wf = true) (addr : Word) (val : Byte) : (m.write addr val).wf = true := by
  by_cases hv : val = Memory.unlisted
  · simpa [Memory.write, Memory.writeAt, hv, Memory.wf] using wfFrom_eraseAt addr.toNat h
  · simpa [Memory.write, Memory.writeAt, hv, Memory.wf] using
      wfFrom_insertAt hv (Nat.zero_le _) addr.isLt (not_mem_eraseAt _ _) (wfFrom_eraseAt addr.toNat h)

theorem wf_storeBytes {m : Memory} (h : m.wf = true) (addr : Word) (bytes : List Byte) :
    (storeBytes addr bytes m).wf = true := by
  induction bytes generalizing addr m with
  | nil => exact h
  | cons b rest ih => exact ih (wf_write h addr b) _

theorem readAt_of_lt {m : Memory} {lo a : Nat} (h : Memory.wfFrom lo m = true) (ha : a < lo) :
    Memory.readAt a m = Memory.unlisted := by
  induction m generalizing lo with
  | nil => rfl
  | cons cell rest ih =>
    obtain ⟨k, w⟩ := cell
    simp only [Memory.wfFrom, Bool.and_eq_true, decide_eq_true_eq] at h
    have hne : a ≠ k := by omega
    simpa [Memory.readAt, hne] using ih h.2 (by omega)

/-- Two canonical memories that read alike are the same list: equal memories are equal data. -/
theorem eq_of_wfFrom_of_readAt {m m' : Memory} {lo lo' : Nat} (h : Memory.wfFrom lo m = true)
    (h' : Memory.wfFrom lo' m' = true) (hread : ∀ a < 65536, Memory.readAt a m = Memory.readAt a m') : m = m' := by
  induction m generalizing lo lo' m' with
  | nil =>
    cases m' with
    | nil => rfl
    | cons cell' rest' =>
      obtain ⟨k', w'⟩ := cell'
      simp only [Memory.wfFrom, Bool.and_eq_true, decide_eq_true_eq, bne_iff_ne] at h'
      exact absurd (hread k' h'.1.1.2).symm (by simpa [Memory.readAt] using h'.1.2)
  | cons cell rest ih =>
    obtain ⟨k, w⟩ := cell
    simp only [Memory.wfFrom, Bool.and_eq_true, decide_eq_true_eq, bne_iff_ne] at h
    cases m' with
    | nil => exact absurd (hread k h.1.1.2) (by simpa [Memory.readAt] using h.1.2)
    | cons cell' rest' =>
      obtain ⟨k', w'⟩ := cell'
      simp only [Memory.wfFrom, Bool.and_eq_true, decide_eq_true_eq, bne_iff_ne] at h'
      rcases Nat.lt_trichotomy k k' with hlt | heq | hgt
      · have hr := hread k h.1.1.2
        have hne : k ≠ k' := by omega
        simp only [Memory.readAt, if_true, hne, if_false, readAt_of_lt h'.2 (show k < k' + 1 by omega)] at hr
        exact absurd hr h.1.2
      · subst heq
        have hw : w = w' := by simpa [Memory.readAt] using hread k h.1.1.2
        have hrest : rest = rest' := by
          refine ih h.2 h'.2 fun a ha => ?_
          by_cases hak : a = k
          · subst hak
            rw [readAt_of_lt h.2 (Nat.lt_succ_self a), readAt_of_lt h'.2 (Nat.lt_succ_self a)]
          · simpa [Memory.readAt, hak] using hread a ha
        rw [hw, hrest]
      · have hr := hread k' h'.1.1.2
        have hne : k' ≠ k := by omega
        simp only [Memory.readAt, if_true, hne, if_false, readAt_of_lt h.2 (show k' < k + 1 by omega)] at hr
        exact absurd hr.symm h'.1.2

theorem eq_of_read_eq {m m' : Memory} (h : m.wf = true) (h' : m'.wf = true) (hread : ∀ a : Word, m.read a = m'.read a) :
    m = m' := by
  refine eq_of_wfFrom_of_readAt h h' fun a ha => ?_
  have := hread (BitVec.ofNat 16 a)
  simpa [Memory.read, Nat.mod_eq_of_lt ha] using this

end Sys2Proof.Laws
end

