-- ==== Sys2Proof/Laws/State.lean ====
section
/-! SUPPORT. One lemma per field per update of the state, true by `rfl`, so that no proof unfolds a record update. -/

namespace Sys2Proof.Laws

open Machine

section
variable (r : Byte) (s : State)

@[simp] theorem setNZ_a : (setNZ r s).a = s.a := rfl
@[simp] theorem setNZ_x : (setNZ r s).x = s.x := rfl
@[simp] theorem setNZ_y : (setNZ r s).y = s.y := rfl
@[simp] theorem setNZ_sp : (setNZ r s).sp = s.sp := rfl
@[simp] theorem setNZ_pc : (setNZ r s).pc = s.pc := rfl
@[simp] theorem setNZ_c : (setNZ r s).c = s.c := rfl
@[simp] theorem setNZ_z : (setNZ r s).z = (r == 0x00#8) := rfl
@[simp] theorem setNZ_i : (setNZ r s).i = s.i := rfl
@[simp] theorem setNZ_d : (setNZ r s).d = s.d := rfl
@[simp] theorem setNZ_b : (setNZ r s).b = s.b := rfl
@[simp] theorem setNZ_v : (setNZ r s).v = s.v := rfl
@[simp] theorem setNZ_n : (setNZ r s).n = r.getLsbD 7 := rfl
@[simp] theorem setNZ_cyc : (setNZ r s).cyc = s.cyc := rfl
@[simp] theorem setNZ_run : (setNZ r s).run = s.run := rfl
@[simp] theorem setNZ_mem : (setNZ r s).mem = s.mem := rfl
@[simp] theorem setNZ_trace : (setNZ r s).trace = s.trace := rfl
@[simp] theorem setNZ_history : (setNZ r s).history = s.history := rfl

end

section
variable (p : Byte) (s : State)

@[simp] theorem setStatus_a : (setStatus p s).a = s.a := rfl
@[simp] theorem setStatus_x : (setStatus p s).x = s.x := rfl
@[simp] theorem setStatus_y : (setStatus p s).y = s.y := rfl
@[simp] theorem setStatus_sp : (setStatus p s).sp = s.sp := rfl
@[simp] theorem setStatus_pc : (setStatus p s).pc = s.pc := rfl
@[simp] theorem setStatus_c : (setStatus p s).c = p.getLsbD 0 := rfl
@[simp] theorem setStatus_z : (setStatus p s).z = p.getLsbD 1 := rfl
@[simp] theorem setStatus_i : (setStatus p s).i = p.getLsbD 2 := rfl
@[simp] theorem setStatus_d : (setStatus p s).d = p.getLsbD 3 := rfl
@[simp] theorem setStatus_b : (setStatus p s).b = p.getLsbD 4 := rfl
@[simp] theorem setStatus_v : (setStatus p s).v = p.getLsbD 6 := rfl
@[simp] theorem setStatus_n : (setStatus p s).n = p.getLsbD 7 := rfl
@[simp] theorem setStatus_cyc : (setStatus p s).cyc = s.cyc := rfl
@[simp] theorem setStatus_run : (setStatus p s).run = s.run := rfl
@[simp] theorem setStatus_mem : (setStatus p s).mem = s.mem := rfl
@[simp] theorem setStatus_trace : (setStatus p s).trace = s.trace := rfl
@[simp] theorem setStatus_history : (setStatus p s).history = s.history := rfl

end

section
variable (r m : Byte) (s : State)

@[simp] theorem compareBytes_a : (compareBytes r m s).a = s.a := rfl
@[simp] theorem compareBytes_x : (compareBytes r m s).x = s.x := rfl
@[simp] theorem compareBytes_y : (compareBytes r m s).y = s.y := rfl
@[simp] theorem compareBytes_sp : (compareBytes r m s).sp = s.sp := rfl
@[simp] theorem compareBytes_pc : (compareBytes r m s).pc = s.pc := rfl
@[simp] theorem compareBytes_c : (compareBytes r m s).c = decide (m.toNat ≤ r.toNat) := rfl
@[simp] theorem compareBytes_z : (compareBytes r m s).z = (r - m == 0x00#8) := rfl
@[simp] theorem compareBytes_i : (compareBytes r m s).i = s.i := rfl
@[simp] theorem compareBytes_d : (compareBytes r m s).d = s.d := rfl
@[simp] theorem compareBytes_b : (compareBytes r m s).b = s.b := rfl
@[simp] theorem compareBytes_v : (compareBytes r m s).v = s.v := rfl
@[simp] theorem compareBytes_n : (compareBytes r m s).n = (r - m).getLsbD 7 := rfl
@[simp] theorem compareBytes_cyc : (compareBytes r m s).cyc = s.cyc := rfl
@[simp] theorem compareBytes_run : (compareBytes r m s).run = s.run := rfl
@[simp] theorem compareBytes_mem : (compareBytes r m s).mem = s.mem := rfl
@[simp] theorem compareBytes_trace : (compareBytes r m s).trace = s.trace := rfl
@[simp] theorem compareBytes_history : (compareBytes r m s).history = s.history := rfl

end

section
variable (t : Transaction) (s : State)

@[simp] theorem record_a : (record t s).a = s.a := rfl
@[simp] theorem record_x : (record t s).x = s.x := rfl
@[simp] theorem record_y : (record t s).y = s.y := rfl
@[simp] theorem record_sp : (record t s).sp = s.sp := rfl
@[simp] theorem record_pc : (record t s).pc = s.pc := rfl
@[simp] theorem record_c : (record t s).c = s.c := rfl
@[simp] theorem record_z : (record t s).z = s.z := rfl
@[simp] theorem record_i : (record t s).i = s.i := rfl
@[simp] theorem record_d : (record t s).d = s.d := rfl
@[simp] theorem record_b : (record t s).b = s.b := rfl
@[simp] theorem record_v : (record t s).v = s.v := rfl
@[simp] theorem record_n : (record t s).n = s.n := rfl
@[simp] theorem record_cyc : (record t s).cyc = s.cyc := rfl
@[simp] theorem record_run : (record t s).run = s.run := rfl
@[simp] theorem record_mem : (record t s).mem = s.mem := rfl
@[simp] theorem record_trace : (record t s).trace = s.trace ++ [t] := rfl
@[simp] theorem record_history : (record t s).history = s.history := rfl

end

section
variable (addr : Word) (s : State)

@[simp] theorem memRead_val : (memRead addr s).1 = s.mem.read addr := rfl
@[simp] theorem memRead_a : (memRead addr s).2.a = s.a := rfl
@[simp] theorem memRead_x : (memRead addr s).2.x = s.x := rfl
@[simp] theorem memRead_y : (memRead addr s).2.y = s.y := rfl
@[simp] theorem memRead_sp : (memRead addr s).2.sp = s.sp := rfl
@[simp] theorem memRead_pc : (memRead addr s).2.pc = s.pc := rfl
@[simp] theorem memRead_c : (memRead addr s).2.c = s.c := rfl
@[simp] theorem memRead_z : (memRead addr s).2.z = s.z := rfl
@[simp] theorem memRead_i : (memRead addr s).2.i = s.i := rfl
@[simp] theorem memRead_d : (memRead addr s).2.d = s.d := rfl
@[simp] theorem memRead_b : (memRead addr s).2.b = s.b := rfl
@[simp] theorem memRead_v : (memRead addr s).2.v = s.v := rfl
@[simp] theorem memRead_n : (memRead addr s).2.n = s.n := rfl
@[simp] theorem memRead_cyc : (memRead addr s).2.cyc = s.cyc := rfl
@[simp] theorem memRead_run : (memRead addr s).2.run = s.run := rfl
@[simp] theorem memRead_mem : (memRead addr s).2.mem = s.mem := rfl
@[simp] theorem memRead_trace : (memRead addr s).2.trace = s.trace ++ [.read addr (s.mem.read addr)] := rfl
@[simp] theorem memRead_history : (memRead addr s).2.history = s.history := rfl

end

section
variable (addr : Word) (val : Byte) (s : State)

@[simp] theorem memWrite_a : (memWrite addr val s).a = s.a := rfl
@[simp] theorem memWrite_x : (memWrite addr val s).x = s.x := rfl
@[simp] theorem memWrite_y : (memWrite addr val s).y = s.y := rfl
@[simp] theorem memWrite_sp : (memWrite addr val s).sp = s.sp := rfl
@[simp] theorem memWrite_pc : (memWrite addr val s).pc = s.pc := rfl
@[simp] theorem memWrite_c : (memWrite addr val s).c = s.c := rfl
@[simp] theorem memWrite_z : (memWrite addr val s).z = s.z := rfl
@[simp] theorem memWrite_i : (memWrite addr val s).i = s.i := rfl
@[simp] theorem memWrite_d : (memWrite addr val s).d = s.d := rfl
@[simp] theorem memWrite_b : (memWrite addr val s).b = s.b := rfl
@[simp] theorem memWrite_v : (memWrite addr val s).v = s.v := rfl
@[simp] theorem memWrite_n : (memWrite addr val s).n = s.n := rfl
@[simp] theorem memWrite_cyc : (memWrite addr val s).cyc = s.cyc := rfl
@[simp] theorem memWrite_run : (memWrite addr val s).run = s.run := rfl
@[simp] theorem memWrite_mem : (memWrite addr val s).mem = s.mem.write addr val := rfl
@[simp] theorem memWrite_trace : (memWrite addr val s).trace = s.trace ++ [.write addr val] := rfl
@[simp] theorem memWrite_history : (memWrite addr val s).history = s.history := rfl

end

section
variable (s : State)

@[simp] theorem fetch8_val : (fetch8 s).1 = s.mem.read s.pc := rfl
@[simp] theorem fetch8_a : (fetch8 s).2.a = s.a := rfl
@[simp] theorem fetch8_x : (fetch8 s).2.x = s.x := rfl
@[simp] theorem fetch8_y : (fetch8 s).2.y = s.y := rfl
@[simp] theorem fetch8_sp : (fetch8 s).2.sp = s.sp := rfl
@[simp] theorem fetch8_pc : (fetch8 s).2.pc = s.pc + 1#16 := rfl
@[simp] theorem fetch8_c : (fetch8 s).2.c = s.c := rfl
@[simp] theorem fetch8_z : (fetch8 s).2.z = s.z := rfl
@[simp] theorem fetch8_i : (fetch8 s).2.i = s.i := rfl
@[simp] theorem fetch8_d : (fetch8 s).2.d = s.d := rfl
@[simp] theorem fetch8_b : (fetch8 s).2.b = s.b := rfl
@[simp] theorem fetch8_v : (fetch8 s).2.v = s.v := rfl
@[simp] theorem fetch8_n : (fetch8 s).2.n = s.n := rfl
@[simp] theorem fetch8_cyc : (fetch8 s).2.cyc = s.cyc := rfl
@[simp] theorem fetch8_run : (fetch8 s).2.run = s.run := rfl
@[simp] theorem fetch8_mem : (fetch8 s).2.mem = s.mem := rfl
@[simp] theorem fetch8_trace : (fetch8 s).2.trace = s.trace ++ [.read s.pc (s.mem.read s.pc)] := rfl
@[simp] theorem fetch8_history : (fetch8 s).2.history = s.history := rfl

end

section
variable (val : Byte) (s : State)

@[simp] theorem push_a : (push val s).a = s.a := rfl
@[simp] theorem push_x : (push val s).x = s.x := rfl
@[simp] theorem push_y : (push val s).y = s.y := rfl
@[simp] theorem push_sp : (push val s).sp = s.sp - 1#8 := rfl
@[simp] theorem push_pc : (push val s).pc = s.pc := rfl
@[simp] theorem push_c : (push val s).c = s.c := rfl
@[simp] theorem push_z : (push val s).z = s.z := rfl
@[simp] theorem push_i : (push val s).i = s.i := rfl
@[simp] theorem push_d : (push val s).d = s.d := rfl
@[simp] theorem push_b : (push val s).b = s.b := rfl
@[simp] theorem push_v : (push val s).v = s.v := rfl
@[simp] theorem push_n : (push val s).n = s.n := rfl
@[simp] theorem push_cyc : (push val s).cyc = s.cyc := rfl
@[simp] theorem push_run : (push val s).run = s.run := rfl
@[simp] theorem push_mem : (push val s).mem = s.mem.write (stackAddr s.sp) val := rfl
@[simp] theorem push_trace : (push val s).trace = s.trace ++ [.write (stackAddr s.sp) val] := rfl
@[simp] theorem push_history : (push val s).history = s.history := rfl

end

section
variable (s : State)

@[simp] theorem pull_val : (pull s).1 = s.mem.read (stackAddr (s.sp + 1#8)) := rfl
@[simp] theorem pull_a : (pull s).2.a = s.a := rfl
@[simp] theorem pull_x : (pull s).2.x = s.x := rfl
@[simp] theorem pull_y : (pull s).2.y = s.y := rfl
@[simp] theorem pull_sp : (pull s).2.sp = s.sp + 1#8 := rfl
@[simp] theorem pull_pc : (pull s).2.pc = s.pc := rfl
@[simp] theorem pull_c : (pull s).2.c = s.c := rfl
@[simp] theorem pull_z : (pull s).2.z = s.z := rfl
@[simp] theorem pull_i : (pull s).2.i = s.i := rfl
@[simp] theorem pull_d : (pull s).2.d = s.d := rfl
@[simp] theorem pull_b : (pull s).2.b = s.b := rfl
@[simp] theorem pull_v : (pull s).2.v = s.v := rfl
@[simp] theorem pull_n : (pull s).2.n = s.n := rfl
@[simp] theorem pull_cyc : (pull s).2.cyc = s.cyc := rfl
@[simp] theorem pull_run : (pull s).2.run = s.run := rfl
@[simp] theorem pull_mem : (pull s).2.mem = s.mem := rfl
@[simp] theorem pull_trace : (pull s).2.trace = s.trace ++ [.read (stackAddr (s.sp + 1#8)) (s.mem.read (stackAddr (s.sp + 1#8)))] := rfl
@[simp] theorem pull_history : (pull s).2.history = s.history := rfl

end

section
variable (k : Nat) (s : State)

@[simp] theorem addCycles_a : (addCycles k s).a = s.a := rfl
@[simp] theorem addCycles_x : (addCycles k s).x = s.x := rfl
@[simp] theorem addCycles_y : (addCycles k s).y = s.y := rfl
@[simp] theorem addCycles_sp : (addCycles k s).sp = s.sp := rfl
@[simp] theorem addCycles_pc : (addCycles k s).pc = s.pc := rfl
@[simp] theorem addCycles_c : (addCycles k s).c = s.c := rfl
@[simp] theorem addCycles_z : (addCycles k s).z = s.z := rfl
@[simp] theorem addCycles_i : (addCycles k s).i = s.i := rfl
@[simp] theorem addCycles_d : (addCycles k s).d = s.d := rfl
@[simp] theorem addCycles_b : (addCycles k s).b = s.b := rfl
@[simp] theorem addCycles_v : (addCycles k s).v = s.v := rfl
@[simp] theorem addCycles_n : (addCycles k s).n = s.n := rfl
@[simp] theorem addCycles_cyc : (addCycles k s).cyc = s.cyc + k := rfl
@[simp] theorem addCycles_run : (addCycles k s).run = s.run := rfl
@[simp] theorem addCycles_mem : (addCycles k s).mem = s.mem := rfl
@[simp] theorem addCycles_trace : (addCycles k s).trace = s.trace := rfl
@[simp] theorem addCycles_history : (addCycles k s).history = s.history := rfl

end

section
variable (k : Descriptor) (extra : Nat) (s : State)

@[simp] theorem complete_a : (complete k extra s).a = s.a := rfl
@[simp] theorem complete_x : (complete k extra s).x = s.x := rfl
@[simp] theorem complete_y : (complete k extra s).y = s.y := rfl
@[simp] theorem complete_sp : (complete k extra s).sp = s.sp := rfl
@[simp] theorem complete_pc : (complete k extra s).pc = s.pc := rfl
@[simp] theorem complete_c : (complete k extra s).c = s.c := rfl
@[simp] theorem complete_z : (complete k extra s).z = s.z := rfl
@[simp] theorem complete_i : (complete k extra s).i = s.i := rfl
@[simp] theorem complete_d : (complete k extra s).d = s.d := rfl
@[simp] theorem complete_b : (complete k extra s).b = s.b := rfl
@[simp] theorem complete_v : (complete k extra s).v = s.v := rfl
@[simp] theorem complete_n : (complete k extra s).n = s.n := rfl
@[simp] theorem complete_cyc : (complete k extra s).cyc = s.cyc + (k.baseCycles + extra) := rfl
@[simp] theorem complete_run : (complete k extra s).run = s.run := rfl
@[simp] theorem complete_mem : (complete k extra s).mem = s.mem := rfl
@[simp] theorem complete_trace : (complete k extra s).trace = s.trace := rfl
@[simp] theorem complete_history : (complete k extra s).history = s.history := rfl

end

section
variable (s : State)

@[simp] theorem beginStep_a : (beginStep s).a = s.a := rfl
@[simp] theorem beginStep_x : (beginStep s).x = s.x := rfl
@[simp] theorem beginStep_y : (beginStep s).y = s.y := rfl
@[simp] theorem beginStep_sp : (beginStep s).sp = s.sp := rfl
@[simp] theorem beginStep_pc : (beginStep s).pc = s.pc := rfl
@[simp] theorem beginStep_c : (beginStep s).c = s.c := rfl
@[simp] theorem beginStep_z : (beginStep s).z = s.z := rfl
@[simp] theorem beginStep_i : (beginStep s).i = s.i := rfl
@[simp] theorem beginStep_d : (beginStep s).d = s.d := rfl
@[simp] theorem beginStep_b : (beginStep s).b = s.b := rfl
@[simp] theorem beginStep_v : (beginStep s).v = s.v := rfl
@[simp] theorem beginStep_n : (beginStep s).n = s.n := rfl
@[simp] theorem beginStep_cyc : (beginStep s).cyc = s.cyc := rfl
@[simp] theorem beginStep_run : (beginStep s).run = s.run := rfl
@[simp] theorem beginStep_mem : (beginStep s).mem = s.mem := rfl
@[simp] theorem beginStep_trace : (beginStep s).trace = [] := rfl
@[simp] theorem beginStep_history : (beginStep s).history = s.history ++ s.trace := rfl

end

end Sys2Proof.Laws
end

