-- ==== Sys2Proof/Laws/Word.lean ====
section
/-! SUPPORT. The byte-order and extension helpers of Decode.lean, as numbers. -/

namespace Sys2Proof.Laws

@[simp] theorem mkWord_toNat (hi lo : Byte) : (mkWord hi lo).toNat = hi.toNat * 256 + lo.toNat := by
  have h := lo.isLt
  simp only [mkWord, BitVec.toNat_append]
  rw [← Nat.shiftLeft_add_eq_or_of_lt h, Nat.shiftLeft_eq]

@[simp] theorem hiByte_toNat (w : Word) : (hiByte w).toNat = w.toNat / 256 := by
  have h := w.isLt
  simp only [hiByte, BitVec.extractLsb'_toNat, Nat.shiftRight_eq_div_pow]
  omega

@[simp] theorem loByte_toNat (w : Word) : (loByte w).toNat = w.toNat % 256 := by
  simp [loByte, BitVec.extractLsb'_toNat]

@[simp] theorem zext16_toNat (b : Byte) : (zext16 b).toNat = b.toNat := by
  have h := b.isLt
  simp only [zext16, BitVec.truncate_eq_setWidth, BitVec.toNat_setWidth]
  omega

@[simp] theorem mkWord_hiByte_loByte (w : Word) : mkWord (hiByte w) (loByte w) = w := by
  apply BitVec.eq_of_toNat_eq
  simp only [mkWord_toNat, hiByte_toNat, loByte_toNat]
  omega

@[simp] theorem hiByte_mkWord (hi lo : Byte) : hiByte (mkWord hi lo) = hi := by
  apply BitVec.eq_of_toNat_eq
  have h := lo.isLt
  simp only [mkWord_toNat, hiByte_toNat]
  omega

@[simp] theorem loByte_mkWord (hi lo : Byte) : loByte (mkWord hi lo) = lo := by
  apply BitVec.eq_of_toNat_eq
  have h := lo.isLt
  simp only [mkWord_toNat, loByte_toNat]
  omega

/-- `sext_16` as R8 states it: the byte when below 128, the byte plus 0xFF00 otherwise. -/
theorem sext16_toNat (b : Byte) : (sext16 b).toNat = if b.toNat < 128 then b.toNat else b.toNat + 0xFF00 := by
  have h := b.isLt
  simp only [sext16, BitVec.signExtend, BitVec.toNat_ofInt, BitVec.toInt_eq_toNat_cond]
  split <;> split <;> omega

/-- A word is the one its number names. -/
theorem mkWord_eq_ofNat (hi lo : Byte) : mkWord hi lo = BitVec.ofNat 16 (hi.toNat * 256 + lo.toNat) := by
  apply BitVec.eq_of_toNat_eq
  have h := hi.isLt
  have h' := lo.isLt
  rw [mkWord_toNat, BitVec.toNat_ofNat]
  omega

end Sys2Proof.Laws
end

