-- ==== Sys2Proof/Laws/Ops.lean ====
section
/-! SUPPORT. What each shared operation of Ops.lean does, as one equation over the state before it, and the stack addresses. A proof
rewrites with these and never unfolds an operation. -/

namespace Sys2Proof.Laws

open Machine

/-! ## The port -/

theorem memRead_eq (addr : Word) (s : State) :
    memRead addr s = (s.mem.read addr, { s with trace := s.trace ++ [.read addr (s.mem.read addr)] }) := rfl

theorem memWrite_eq (addr : Word) (val : Byte) (s : State) :
    memWrite addr val s = { s with mem := s.mem.write addr val, trace := s.trace ++ [.write addr val] } := rfl

theorem complete_eq (k : Descriptor) (extra : Nat) (s : State) :
    complete k extra s = { s with cyc := s.cyc + (k.baseCycles + extra) } := rfl

/-! ## The stack -/

@[simp] theorem stackAddr_toNat (sp : Byte) : (stackAddr sp).toNat = 256 + sp.toNat := by
  have h := sp.isLt
  simp only [stackAddr, BitVec.toNat_add, zext16_toNat, BitVec.toNat_ofNat]
  omega

@[simp] theorem stackAddr_inj {sp sp' : Byte} : stackAddr sp = stackAddr sp' ↔ sp = sp' := by
  refine ⟨fun h => BitVec.eq_of_toNat_eq ?_, fun h => h ▸ rfl⟩
  have h := congrArg BitVec.toNat h
  simp only [stackAddr_toNat] at h
  omega

/-- A stack address is in page one, so no other address is one. -/
theorem stackAddr_ne {sp : Byte} {addr : Word} (h : 512 ≤ addr.toNat) : addr ≠ stackAddr sp := by
  rintro rfl
  have hs := sp.isLt
  rw [stackAddr_toNat] at h
  omega

theorem sub_one_one (b : Byte) : b - 1#8 - 1#8 = b - 2#8 := by rw [BitVec.sub_sub]; rfl

theorem sub_two_one (b : Byte) : b - 2#8 - 1#8 = b - 3#8 := by rw [BitVec.sub_sub]; rfl

theorem add_one_one (b : Byte) : b + 1#8 + 1#8 = b + 2#8 := by rw [BitVec.add_assoc]; rfl

theorem add_two_one (b : Byte) : b + 2#8 + 1#8 = b + 3#8 := by rw [BitVec.add_assoc]; rfl

theorem push_eq (val : Byte) (s : State) :
    push val s = { s with
      mem := s.mem.write (stackAddr s.sp) val
      sp := s.sp - 1#8
      trace := s.trace ++ [.write (stackAddr s.sp) val] } := rfl

/-! ## The BRK trap and its return -/

/-- Taking the trap as one update. The vector lies outside page one, so the pushes do not touch it. -/
theorem enterBrk_eq (s : State) :
    enterBrk s =
      (let ret := s.pc + 1#16
       let p := statusByte { s with b := true }
       let lo := s.mem.read 0xFFFE#16
       let hi := s.mem.read 0xFFFF#16
       { s with
        pc := mkWord hi lo
        sp := s.sp - 3#8
        b := true
        i := true
        mem := ((s.mem.write (stackAddr s.sp) (hiByte ret)).write (stackAddr (s.sp - 1#8)) (loByte ret)).write
          (stackAddr (s.sp - 2#8)) p
        trace := s.trace ++ [.write (stackAddr s.sp) (hiByte ret), .write (stackAddr (s.sp - 1#8)) (loByte ret),
          .write (stackAddr (s.sp - 2#8)) p, .read 0xFFFE#16 lo, .read 0xFFFF#16 hi] }) := by
  have hl (sp : Byte) : (0xFFFE#16 : Word) ≠ stackAddr sp := stackAddr_ne (by decide)
  have hh (sp : Byte) : (0xFFFF#16 : Word) ≠ stackAddr sp := stackAddr_ne (by decide)
  rw [← sub_two_one, ← sub_one_one]
  simp [enterBrk, push_eq, memRead_eq, brkVectorLow, brkVectorHigh, read_write, hl, hh, statusByte]

/-- Returning from the trap as one update. -/
theorem returnFromBrk_eq (s : State) :
    returnFromBrk s =
      (let p := s.mem.read (stackAddr (s.sp + 1#8))
       let lo := s.mem.read (stackAddr (s.sp + 2#8))
       let hi := s.mem.read (stackAddr (s.sp + 3#8))
       { setStatus p s with
        pc := mkWord hi lo
        sp := s.sp + 3#8
        trace := s.trace ++ [.read (stackAddr (s.sp + 1#8)) p, .read (stackAddr (s.sp + 2#8)) lo,
          .read (stackAddr (s.sp + 3#8)) hi] }) := by
  rw [← add_two_one, ← add_one_one]
  simp [returnFromBrk, pull, memRead_eq, setStatus]

end Sys2Proof.Laws
end

