-- ==== Sys2Proof/Laws/Operands.lean ====
section
/-! SUPPORT. What resolving a mode and reading or writing the operand can do to the state. -/

namespace Sys2Proof.Laws

open Machine

/-- How many bytes resolving a mode reads. -/
def pointerReads : MemMode → Nat
  | .indirect _ | .indexedIndirect _ | .indirectIndexed _ => 2
  | .zeroPage _ | .zeroPageX _ | .zeroPageY _ | .absolute _ | .absoluteX _ | .absoluteY _ => 0

/-- Resolving changes the record of transactions and nothing else. -/
theorem resolve_snd (mode : MemMode) (s : State) :
    (resolve mode s).2 = { s with trace := (resolve mode s).2.trace } := by
  cases mode <;> rfl

@[simp] theorem resolve_mem (mode : MemMode) (s : State) : (resolve mode s).2.mem = s.mem := by rw [resolve_snd]

/-- Reading the operand changes the record of transactions and nothing else. -/
theorem loadOperand_snd (op : Operand) (s : State) :
    (loadOperand op s).2 = { s with trace := (loadOperand op s).2.trace } := by
  cases op <;> rfl

/-- The extra cycle is one at most, and none for an opcode without the penalty. -/
theorem extraForOperand_le (k : Descriptor) (op : Operand) : extraForOperand k op ≤ 1 := by
  cases op <;> simp only [extraForOperand] <;> (try split) <;> omega

theorem extraForOperand_of_not_penalty {k : Descriptor} (h : k.pageCrossPenalty = false) (op : Operand) :
    extraForOperand k op = 0 := by
  cases op <;> simp [extraForOperand, h]

end Sys2Proof.Laws
end

