-- ==== Sys2Proof/Laws/Port.lean ====
section
/-! SUPPORT. What every operation does to memory, the port's record, RUN and the history, said once per operation and composed:
new transactions are appended, they account for the change of memory, and RUN and the history stay. -/

namespace Sys2Proof.Laws

open Machine Safety

/-! ## Replaying a record -/

theorem replay_append (l l' : List Transaction) (m : Memory) :
    replay (l ++ l') m = (replay l m).bind (replay l') := by
  induction l generalizing m with
  | nil => rfl
  | cons t rest ih =>
    cases t with
    | read addr val => by_cases h : m.read addr = val <;> simp [replay, h, ih]
    | write addr val => simp [replay, ih]

/-- A record played over a canonical memory gives a canonical memory. -/
theorem wf_replay {l : List Transaction} {m m' : Memory} (hm : m.wf = true) (h : replay l m = some m') : m'.wf = true := by
  induction l generalizing m with
  | nil => exact Option.some.inj h ▸ hm
  | cons t rest ih =>
    cases t with
    | read addr val =>
      by_cases hr : m.read addr = val
      · exact ih hm (by simpa [replay, hr] using h)
      · simp [replay, hr] at h
    | write addr val => exact ih (wf_write hm addr val) h

/-! ## The relation -/

/-- From `s` to `t` at most `n` transactions were appended to the record; played over the memory of `s` they give that of
`t`; RUN and the history are as before. -/
structure Accounts (n : Nat) (s t : State) : Prop where
  record : ∃ l : List Transaction, t.trace = s.trace ++ l ∧ l.length ≤ n ∧ replay l s.mem = some t.mem
  run : t.run = s.run
  history : t.history = s.history

/-- A change of registers, flags and cycles only. -/
theorem Accounts.of_registers {s t : State} (hm : t.mem = s.mem) (ht : t.trace = s.trace) (hr : t.run = s.run)
    (hh : t.history = s.history) : Accounts 0 s t :=
  ⟨⟨[], by simp [ht], Nat.le_refl 0, by simp [replay, hm]⟩, hr, hh⟩

theorem Accounts.refl (s : State) : Accounts 0 s s := .of_registers rfl rfl rfl rfl

theorem Accounts.trans {n k : Nat} {s t u : State} (h : Accounts n s t) (h' : Accounts k t u) : Accounts (n + k) s u := by
  obtain ⟨l, ht, hl, hr⟩ := h.record
  obtain ⟨l', ht', hl', hr'⟩ := h'.record
  refine ⟨⟨l ++ l', by simp [ht', ht], ?_, by simp [replay_append, hr, hr']⟩, h'.run.trans h.run,
    h'.history.trans h.history⟩
  simpa using Nat.add_le_add hl hl'

theorem Accounts.mono {n k : Nat} {s t : State} (h : Accounts n s t) (hle : n ≤ k) : Accounts k s t := by
  obtain ⟨l, ht, hl, hr⟩ := h.record
  exact ⟨⟨l, ht, Nat.le_trans hl hle, hr⟩, h.run, h.history⟩

/-- Registers, flags and cycles changed on top of what was accounted for. -/
theorem Accounts.then_registers {n : Nat} {s t u : State} (h : Accounts n s t) (hm : u.mem = t.mem)
    (ht : u.trace = t.trace) (hr : u.run = t.run) (hh : u.history = t.history) : Accounts n s u :=
  h.trans (.of_registers hm ht hr hh)

/-- Ending an instruction adds cycles. -/
theorem Accounts.complete {n : Nat} {s t : State} (h : Accounts n s t) (k : Descriptor) (extra : Nat) :
    Accounts n s (Machine.complete k extra t) :=
  h.then_registers rfl rfl rfl rfl

/-! ## The shared operations -/

theorem accounts_memRead (addr : Word) (s : State) : Accounts 1 s (memRead addr s).2 :=
  ⟨⟨[.read addr (s.mem.read addr)], rfl, Nat.le_refl 1, by simp [replay]⟩, rfl, rfl⟩

theorem accounts_memWrite (addr : Word) (val : Byte) (s : State) : Accounts 1 s (memWrite addr val s) :=
  ⟨⟨[.write addr val], rfl, Nat.le_refl 1, rfl⟩, rfl, rfl⟩

theorem accounts_fetch8 (s : State) : Accounts 1 s (fetch8 s).2 :=
  (accounts_memRead s.pc s).then_registers rfl rfl rfl rfl

theorem accounts_push (val : Byte) (s : State) : Accounts 1 s (push val s) :=
  (accounts_memWrite (stackAddr s.sp) val s).then_registers rfl rfl rfl rfl

theorem accounts_pull (s : State) : Accounts 1 s (pull s).2 :=
  ⟨⟨[.read (stackAddr (s.sp + 1#8)) (pull s).1], rfl, Nat.le_refl 1, by simp [replay]⟩, rfl, rfl⟩

theorem accounts_enterBrk (s : State) : Accounts 5 s (enterBrk s) := by
  have hl (sp : Byte) : (0xFFFE#16 : Word) ≠ stackAddr sp := stackAddr_ne (by decide)
  have hh (sp : Byte) : (0xFFFF#16 : Word) ≠ stackAddr sp := stackAddr_ne (by decide)
  rw [enterBrk_eq]
  exact ⟨⟨_, rfl, Nat.le_refl 5, by simp [replay, read_write, hl, hh]⟩, rfl, rfl⟩

theorem accounts_returnFromBrk (s : State) : Accounts 3 s (returnFromBrk s) :=
  (((accounts_pull s).then_registers (u := setStatus (pull s).1 (pull s).2) rfl rfl rfl rfl).trans
    ((accounts_pull _).trans (accounts_pull _))).then_registers rfl rfl rfl rfl

theorem accounts_resolve (mode : MemMode) (s : State) : Accounts (pointerReads mode) s (resolve mode s).2 := by
  cases mode <;> first
    | exact .refl s
    | exact (accounts_memRead _ s).trans (accounts_memRead _ _)

theorem accounts_loadOperand (op : Operand) (s : State) : Accounts 1 s (loadOperand op s).2 := by
  cases op <;> first
    | exact (Accounts.refl s).mono (Nat.zero_le 1)
    | exact accounts_memRead _ s

theorem accounts_storeOperand (place : Place) (val : Byte) (s : State) : Accounts 1 s (storeOperand place val s) := by
  cases place with
  | acc => exact (Accounts.of_registers (s := s) (t := { s with a := val }) rfl rfl rfl rfl).mono (Nat.zero_le 1)
  | addr p => exact accounts_memWrite _ _ s

theorem accounts_onOperand {n : Nat} {rule : Operand → State → State} (h : ∀ op s, Accounts n s (rule op s)) (mode : MemMode)
    (s : State) : Accounts (pointerReads mode + n) s (onOperand mode rule s) :=
  (accounts_resolve mode s).trans (h _ _)

theorem accounts_onPlace {n : Nat} {rule : Place → State → State} (h : ∀ place s, Accounts n s (rule place s))
    (mode : MemMode) (s : State) : Accounts (pointerReads mode + n) s (onPlace mode rule s) :=
  (accounts_resolve mode s).trans (h _ _)

theorem accounts_onAddress {n : Nat} {rule : Address → State → State} (h : ∀ p s, Accounts n s (rule p s)) (mode : MemMode)
    (s : State) : Accounts (pointerReads mode + n) s (onAddress mode rule s) :=
  (accounts_resolve mode s).trans (h _ _)

end Sys2Proof.Laws
end

