-- ==== Sys2Proof/Laws/Exec.lean ====
section
/-! SUPPORT. What every meaning can do, said once: it answers a next state, and it accounts for its transactions. One lemma per
shared rule, then one for `exec`. -/

namespace Sys2Proof.Laws

open Machine

/-! ## The shared rules -/

theorem accounts_lda (k : Descriptor) (op : Operand) (s : State) : Accounts 1 s (lda k op s) :=
  (accounts_loadOperand op s).then_registers rfl rfl rfl rfl

theorem accounts_ldx (k : Descriptor) (op : Operand) (s : State) : Accounts 1 s (ldx k op s) :=
  (accounts_loadOperand op s).then_registers rfl rfl rfl rfl

theorem accounts_ldy (k : Descriptor) (op : Operand) (s : State) : Accounts 1 s (ldy k op s) :=
  (accounts_loadOperand op s).then_registers rfl rfl rfl rfl

theorem accounts_sta (k : Descriptor) (p : Address) (s : State) : Accounts 1 s (sta k p s) :=
  (accounts_storeOperand (.addr p) s.a s).then_registers rfl rfl rfl rfl

theorem accounts_stx (k : Descriptor) (p : Address) (s : State) : Accounts 1 s (stx k p s) :=
  (accounts_storeOperand (.addr p) s.x s).then_registers rfl rfl rfl rfl

theorem accounts_sty (k : Descriptor) (p : Address) (s : State) : Accounts 1 s (sty k p s) :=
  (accounts_storeOperand (.addr p) s.y s).then_registers rfl rfl rfl rfl

theorem accounts_adc (k : Descriptor) (op : Operand) (s : State) : Accounts 1 s (adc k op s) :=
  (accounts_loadOperand op s).then_registers rfl rfl rfl rfl

theorem accounts_sbc (k : Descriptor) (op : Operand) (s : State) : Accounts 1 s (sbc k op s) :=
  (accounts_loadOperand op s).then_registers rfl rfl rfl rfl

theorem accounts_logic (f : Byte → Byte → Byte) (k : Descriptor) (op : Operand) (s : State) :
    Accounts 1 s (logic f k op s) :=
  (accounts_loadOperand op s).then_registers rfl rfl rfl rfl

theorem accounts_compareWith (r : State → Byte) (k : Descriptor) (op : Operand) (s : State) :
    Accounts 1 s (compareWith r k op s) :=
  (accounts_loadOperand op s).then_registers rfl rfl rfl rfl

theorem accounts_bit (k : Descriptor) (op : Operand) (s : State) : Accounts 1 s (bit k op s) :=
  (accounts_loadOperand op s).then_registers rfl rfl rfl rfl

theorem accounts_changeMemory (f : Byte → Byte) (k : Descriptor) (place : Place) (s : State) :
    Accounts 2 s (changeMemory f k place s) :=
  ((accounts_loadOperand (placeOperand place) s).trans (accounts_storeOperand place _ _)).then_registers rfl rfl rfl rfl

theorem accounts_shiftPlace (f : Byte → Byte × Bool) (k : Descriptor) (place : Place) (s : State) :
    Accounts 2 s (shiftPlace f k place s) :=
  (((accounts_loadOperand (placeOperand place) s).then_registers
    (u := { (loadOperand (placeOperand place) s).2 with c := (f _).2 }) rfl rfl rfl rfl).trans
    (accounts_storeOperand place _ _)).then_registers rfl rfl rfl rfl

theorem accounts_jmp (k : Descriptor) (p : Address) (s : State) : Accounts 0 s (jmp k p s) :=
  .of_registers rfl rfl rfl rfl

theorem accounts_jsr (k : Descriptor) (p : Address) (s : State) : Accounts 2 s (jsr k p s) :=
  ((accounts_push _ s).trans (accounts_push _ _)).then_registers rfl rfl rfl rfl

theorem accounts_rts (k : Descriptor) (s : State) : Accounts 2 s (rts k s) :=
  ((accounts_pull s).trans (accounts_pull _)).then_registers rfl rfl rfl rfl

theorem accounts_branch (cond : Bool) (k : Descriptor) (disp : Byte) (s : State) : Accounts 0 s (branch cond k disp s) := by
  cases cond <;> exact .of_registers rfl rfl rfl rfl

theorem accounts_pla (k : Descriptor) (s : State) : Accounts 1 s (pla k s) :=
  (accounts_pull s).then_registers rfl rfl rfl rfl

theorem accounts_plp (k : Descriptor) (s : State) : Accounts 1 s (plp k s) :=
  (accounts_pull s).then_registers rfl rfl rfl rfl

/-! ## All meanings -/

/-- How many transactions a meaning issues at most: with the fetch of the instruction, six in all. -/
def transactionBound (i : Instr) : Nat := 5 - (operandBytes i).length

/-- Every meaning answers a next state and accounts for its transactions. -/
theorem exec_accounts (i : Instr) (s : State) : ∃ t, exec i s = .next t ∧ Accounts (transactionBound i) s t := by
  match i with
  | .ldaImm _ =>
    exact ⟨_, rfl, (accounts_lda _ _ s).mono (Nat.le_of_ble_eq_true rfl)⟩
  | .ldaZp _ | .ldaZpX _ | .ldaAbs _ | .ldaAbsX _ | .ldaAbsY _ | .ldaIndX _ | .ldaIndY _ =>
    exact ⟨_, rfl, (accounts_onOperand (accounts_lda _) _ s).mono (Nat.le_of_ble_eq_true rfl)⟩
  | .ldxImm _ =>
    exact ⟨_, rfl, (accounts_ldx _ _ s).mono (Nat.le_of_ble_eq_true rfl)⟩
  | .ldxZp _ | .ldxZpY _ | .ldxAbs _ | .ldxAbsY _ =>
    exact ⟨_, rfl, (accounts_onOperand (accounts_ldx _) _ s).mono (Nat.le_of_ble_eq_true rfl)⟩
  | .ldyImm _ =>
    exact ⟨_, rfl, (accounts_ldy _ _ s).mono (Nat.le_of_ble_eq_true rfl)⟩
  | .ldyZp _ | .ldyZpX _ | .ldyAbs _ | .ldyAbsX _ =>
    exact ⟨_, rfl, (accounts_onOperand (accounts_ldy _) _ s).mono (Nat.le_of_ble_eq_true rfl)⟩
  | .staZp _ | .staZpX _ | .staAbs _ | .staAbsX _ | .staAbsY _ | .staIndX _ | .staIndY _ =>
    exact ⟨_, rfl, (accounts_onAddress (accounts_sta _) _ s).mono (Nat.le_of_ble_eq_true rfl)⟩
  | .stxZp _ | .stxZpY _ | .stxAbs _ =>
    exact ⟨_, rfl, (accounts_onAddress (accounts_stx _) _ s).mono (Nat.le_of_ble_eq_true rfl)⟩
  | .styZp _ | .styZpX _ | .styAbs _ =>
    exact ⟨_, rfl, (accounts_onAddress (accounts_sty _) _ s).mono (Nat.le_of_ble_eq_true rfl)⟩
  | .tax | .tay | .txa | .tya | .tsx | .txs | .inx | .iny | .dex | .dey | .clc | .sec | .cli | .sei | .cld
  | .sed | .clv | .nop =>
    exact ⟨_, rfl, Accounts.mono (.of_registers rfl rfl rfl rfl) (Nat.le_of_ble_eq_true rfl)⟩
  | .adcImm _ =>
    exact ⟨_, rfl, (accounts_adc _ _ s).mono (Nat.le_of_ble_eq_true rfl)⟩
  | .adcZp _ | .adcZpX _ | .adcAbs _ | .adcAbsX _ | .adcAbsY _ | .adcIndX _ | .adcIndY _ =>
    exact ⟨_, rfl, (accounts_onOperand (accounts_adc _) _ s).mono (Nat.le_of_ble_eq_true rfl)⟩
  | .sbcImm _ =>
    exact ⟨_, rfl, (accounts_sbc _ _ s).mono (Nat.le_of_ble_eq_true rfl)⟩
  | .sbcZp _ | .sbcZpX _ | .sbcAbs _ | .sbcAbsX _ | .sbcAbsY _ | .sbcIndX _ | .sbcIndY _ =>
    exact ⟨_, rfl, (accounts_onOperand (accounts_sbc _) _ s).mono (Nat.le_of_ble_eq_true rfl)⟩
  | .incZp _ | .incZpX _ | .incAbs _ | .incAbsX _ | .decZp _ | .decZpX _ | .decAbs _ | .decAbsX _ =>
    exact ⟨_, rfl, (accounts_onPlace (accounts_changeMemory _ _) _ s).mono (Nat.le_of_ble_eq_true rfl)⟩
  | .aslAcc | .lsrAcc | .rolAcc | .rorAcc =>
    exact ⟨_, rfl, (accounts_shiftPlace _ _ _ s).mono (Nat.le_of_ble_eq_true rfl)⟩
  | .aslZp _ | .aslZpX _ | .aslAbs _ | .aslAbsX _ | .lsrZp _ | .lsrZpX _ | .lsrAbs _ | .lsrAbsX _ | .rolZp _
  | .rolZpX _ | .rolAbs _ | .rolAbsX _ | .rorZp _ | .rorZpX _ | .rorAbs _ | .rorAbsX _ =>
    exact ⟨_, rfl, (accounts_onPlace (accounts_shiftPlace _ _) _ s).mono (Nat.le_of_ble_eq_true rfl)⟩
  | .andImm _ | .oraImm _ | .eorImm _ =>
    exact ⟨_, rfl, (accounts_logic _ _ _ s).mono (Nat.le_of_ble_eq_true rfl)⟩
  | .andZp _ | .andZpX _ | .andAbs _ | .andAbsX _ | .andAbsY _ | .andIndX _ | .andIndY _ | .oraZp _
  | .oraZpX _ | .oraAbs _ | .oraAbsX _ | .oraAbsY _ | .oraIndX _ | .oraIndY _ | .eorZp _ | .eorZpX _
  | .eorAbs _ | .eorAbsX _ | .eorAbsY _ | .eorIndX _ | .eorIndY _ =>
    exact ⟨_, rfl, (accounts_onOperand (accounts_logic _ _) _ s).mono (Nat.le_of_ble_eq_true rfl)⟩
  | .cmpImm _ | .cpxImm _ | .cpyImm _ =>
    exact ⟨_, rfl, (accounts_compareWith _ _ _ s).mono (Nat.le_of_ble_eq_true rfl)⟩
  | .cmpZp _ | .cmpZpX _ | .cmpAbs _ | .cmpAbsX _ | .cmpAbsY _ | .cmpIndX _ | .cmpIndY _ | .cpxZp _
  | .cpxAbs _ | .cpyZp _ | .cpyAbs _ =>
    exact ⟨_, rfl, (accounts_onOperand (accounts_compareWith _ _) _ s).mono (Nat.le_of_ble_eq_true rfl)⟩
  | .bcc _ | .bcs _ | .beq _ | .bne _ | .bmi _ | .bpl _ | .bvc _ | .bvs _ =>
    exact ⟨_, rfl, (accounts_branch _ _ _ s).mono (Nat.le_of_ble_eq_true rfl)⟩
  | .jmpAbs _ | .jmpInd _ =>
    exact ⟨_, rfl, (accounts_onAddress (accounts_jmp _) _ s).mono (Nat.le_of_ble_eq_true rfl)⟩
  | .jsr _ =>
    exact ⟨_, rfl, (accounts_onAddress (accounts_jsr _) _ s).mono (Nat.le_of_ble_eq_true rfl)⟩
  | .rts =>
    exact ⟨_, rfl, (accounts_rts _ s).mono (Nat.le_of_ble_eq_true rfl)⟩
  | .pha | .php =>
    exact ⟨_, rfl, ((accounts_push _ s).complete _ _).mono (Nat.le_of_ble_eq_true rfl)⟩
  | .pla =>
    exact ⟨_, rfl, (accounts_pla _ s).mono (Nat.le_of_ble_eq_true rfl)⟩
  | .plp =>
    exact ⟨_, rfl, (accounts_plp _ s).mono (Nat.le_of_ble_eq_true rfl)⟩
  | .bitZp _ | .bitAbs _ =>
    exact ⟨_, rfl, (accounts_onOperand (accounts_bit _) _ s).mono (Nat.le_of_ble_eq_true rfl)⟩
  | .brk =>
    exact ⟨_, rfl, ((accounts_enterBrk s).complete _ _).mono (Nat.le_of_ble_eq_true rfl)⟩
  | .rti =>
    exact ⟨_, rfl, ((accounts_returnFromBrk s).complete _ _).mono (Nat.le_of_ble_eq_true rfl)⟩

end Sys2Proof.Laws
end

