-- ==== Sys2Proof/Laws/Fetch.lean ====
section
/-! SUPPORT. The opcode map and the instructions agree in both directions, by cases over the 151 rows, once: what decoding and
fetching do to an instruction's bytes follows without looking at the map again. -/

namespace Sys2Proof.Laws

open Machine

/-- The entry at an opcode makes instructions whose fetched bytes are that opcode and the operand bytes the entry asks for. -/
def EntrySound (opcode : Byte) : Entry → Prop
  | .noOperand i => fetchedBytes i = [opcode]
  | .byteOperand make => ∀ v, fetchedBytes (make v) = [opcode, v]
  | .wordOperand make => ∀ v, fetchedBytes (make v) = [opcode, loByte v, hiByte v]

/-- The entry makes this instruction from the instruction's own operand bytes. -/
def EntryMakes (i : Instr) : Entry → Prop
  | .noOperand i' => i' = i ∧ operandBytes i = []
  | .byteOperand make => ∃ v, make v = i ∧ operandBytes i = [v]
  | .wordOperand make => ∃ v, make v = i ∧ operandBytes i = [loByte v, hiByte v]

/-- From the instruction to the map. -/
theorem lookupOpcode_descriptor (i : Instr) :
    ∃ e, lookupOpcode (descriptor i).opcode = some e ∧ EntryMakes i e := by
  cases i <;> simp [lookupOpcode, descriptor, tableLine, opcodeMap, mapRow0, mapRow1, mapRow2, mapRow3, mapRow4, mapRow5,
    mapRow6, mapRow7, mapRow8, mapRow9, mapRowA, mapRowB, mapRowC, mapRowD, mapRowE, mapRowF, List.lookup, EntryMakes,
    operandBytes]

/-- A line of the map is sound when each of its cells is. -/
def RowSound (high : Nat) (row : MapRow) : Prop :=
  ∀ cell ∈ row, cell.1 < 16 ∧ EntrySound (BitVec.ofNat 8 (high * 16 + cell.1)) cell.2

theorem rowSound_nil (high : Nat) : RowSound high [] := by
  simp [RowSound]

theorem rowSound_cons {high low : Nat} {e : Entry} {row : MapRow} (hl : low < 16)
    (he : EntrySound (BitVec.ofNat 8 (high * 16 + low)) e) (h : RowSound high row) : RowSound high ((low, e) :: row) :=
  List.forall_mem_cons.2 ⟨⟨hl, he⟩, h⟩

theorem opcodeMap_sound (high : Nat) : RowSound high (opcodeMap.getD high []) := by
  match high with
  | 0 | 1 | 2 | 3 | 4 | 5 | 6 | 7 | 8 | 9 | 10 | 11 | 12 | 13 | 14 | 15 =>
    repeat' first
      | exact rowSound_nil _
      | refine rowSound_cons (by decide) (by first | rfl | exact fun _ => rfl) ?_
  | n + 16 => exact rowSound_nil _

theorem mem_of_lookup {k : Nat} {e : Entry} {row : MapRow} (h : row.lookup k = some e) : (k, e) ∈ row := by
  induction row with
  | nil => simp at h
  | cons cell rest ih =>
    obtain ⟨k', e'⟩ := cell
    by_cases hk : k = k'
    · subst hk
      simp at h
      simp [h]
    · have hne : (k == k') = false := by simpa using hk
      simp only [List.lookup, hne] at h
      simp [ih h]

/-- From the map to the instructions. -/
theorem lookupOpcode_sound {opcode : Byte} {e : Entry} (h : lookupOpcode opcode = some e) : EntrySound opcode e := by
  have hs := (opcodeMap_sound (opcode.toNat / 16) _ (mem_of_lookup h)).2
  have ho : opcode.toNat / 16 * 16 + opcode.toNat % 16 = opcode.toNat := by omega
  simpa [ho] using hs

end Sys2Proof.Laws
end

