-- ==== Sys2Proof/Laws/PerInstr.lean ====
section
/-! SUPPORT. One family of facts about every instruction as syntax, one lemma per constructor (LAWS.json). -/

namespace Sys2Proof.Laws

/-- The table line of an instruction is one that 40_addressing_modes.md R94, R95 and 70_reset_and_hazards.md R252 admit: the
base count is between 2 and 7, and the page-cross penalty stands only at a mode that adds an index to a 16-bit address and
only at a base count of 4 or 5. -/
def TableLine.Statement (i : Instr) : Prop :=
  2 ≤ (descriptor i).baseCycles ∧ (descriptor i).baseCycles ≤ 7 ∧
  ((descriptor i).pageCrossPenalty = true →
    [Mode.absoluteX, .absoluteY, .indirectIndexed].contains i.form.mode = true ∧
      [4, 5].contains (descriptor i).baseCycles = true)

theorem TableLine.ldaImm (imm : Byte) : TableLine.Statement (.ldaImm imm) :=
  ⟨Nat.le_of_ble_eq_true rfl, Nat.le_of_ble_eq_true rfl, fun h => absurd h Bool.false_ne_true⟩

theorem TableLine.ldaZp (zp : Byte) : TableLine.Statement (.ldaZp zp) :=
  ⟨Nat.le_of_ble_eq_true rfl, Nat.le_of_ble_eq_true rfl, fun h => absurd h Bool.false_ne_true⟩

theorem TableLine.ldaZpX (zp : Byte) : TableLine.Statement (.ldaZpX zp) :=
  ⟨Nat.le_of_ble_eq_true rfl, Nat.le_of_ble_eq_true rfl, fun h => absurd h Bool.false_ne_true⟩

theorem TableLine.ldaAbs (addr : Word) : TableLine.Statement (.ldaAbs addr) :=
  ⟨Nat.le_of_ble_eq_true rfl, Nat.le_of_ble_eq_true rfl, fun h => absurd h Bool.false_ne_true⟩

theorem TableLine.ldaAbsX (addr : Word) : TableLine.Statement (.ldaAbsX addr) :=
  ⟨Nat.le_of_ble_eq_true rfl, Nat.le_of_ble_eq_true rfl, fun _ => ⟨rfl, rfl⟩⟩

theorem TableLine.ldaAbsY (addr : Word) : TableLine.Statement (.ldaAbsY addr) :=
  ⟨Nat.le_of_ble_eq_true rfl, Nat.le_of_ble_eq_true rfl, fun _ => ⟨rfl, rfl⟩⟩

theorem TableLine.ldaIndX (zp : Byte) : TableLine.Statement (.ldaIndX zp) :=
  ⟨Nat.le_of_ble_eq_true rfl, Nat.le_of_ble_eq_true rfl, fun h => absurd h Bool.false_ne_true⟩

theorem TableLine.ldaIndY (zp : Byte) : TableLine.Statement (.ldaIndY zp) :=
  ⟨Nat.le_of_ble_eq_true rfl, Nat.le_of_ble_eq_true rfl, fun _ => ⟨rfl, rfl⟩⟩

theorem TableLine.ldxImm (imm : Byte) : TableLine.Statement (.ldxImm imm) :=
  ⟨Nat.le_of_ble_eq_true rfl, Nat.le_of_ble_eq_true rfl, fun h => absurd h Bool.false_ne_true⟩

theorem TableLine.ldxZp (zp : Byte) : TableLine.Statement (.ldxZp zp) :=
  ⟨Nat.le_of_ble_eq_true rfl, Nat.le_of_ble_eq_true rfl, fun h => absurd h Bool.false_ne_true⟩

theorem TableLine.ldxZpY (zp : Byte) : TableLine.Statement (.ldxZpY zp) :=
  ⟨Nat.le_of_ble_eq_true rfl, Nat.le_of_ble_eq_true rfl, fun h => absurd h Bool.false_ne_true⟩

theorem TableLine.ldxAbs (addr : Word) : TableLine.Statement (.ldxAbs addr) :=
  ⟨Nat.le_of_ble_eq_true rfl, Nat.le_of_ble_eq_true rfl, fun h => absurd h Bool.false_ne_true⟩

theorem TableLine.ldxAbsY (addr : Word) : TableLine.Statement (.ldxAbsY addr) :=
  ⟨Nat.le_of_ble_eq_true rfl, Nat.le_of_ble_eq_true rfl, fun _ => ⟨rfl, rfl⟩⟩

theorem TableLine.ldyImm (imm : Byte) : TableLine.Statement (.ldyImm imm) :=
  ⟨Nat.le_of_ble_eq_true rfl, Nat.le_of_ble_eq_true rfl, fun h => absurd h Bool.false_ne_true⟩

theorem TableLine.ldyZp (zp : Byte) : TableLine.Statement (.ldyZp zp) :=
  ⟨Nat.le_of_ble_eq_true rfl, Nat.le_of_ble_eq_true rfl, fun h => absurd h Bool.false_ne_true⟩

theorem TableLine.ldyZpX (zp : Byte) : TableLine.Statement (.ldyZpX zp) :=
  ⟨Nat.le_of_ble_eq_true rfl, Nat.le_of_ble_eq_true rfl, fun h => absurd h Bool.false_ne_true⟩

theorem TableLine.ldyAbs (addr : Word) : TableLine.Statement (.ldyAbs addr) :=
  ⟨Nat.le_of_ble_eq_true rfl, Nat.le_of_ble_eq_true rfl, fun h => absurd h Bool.false_ne_true⟩

theorem TableLine.ldyAbsX (addr : Word) : TableLine.Statement (.ldyAbsX addr) :=
  ⟨Nat.le_of_ble_eq_true rfl, Nat.le_of_ble_eq_true rfl, fun _ => ⟨rfl, rfl⟩⟩

theorem TableLine.staZp (zp : Byte) : TableLine.Statement (.staZp zp) :=
  ⟨Nat.le_of_ble_eq_true rfl, Nat.le_of_ble_eq_true rfl, fun h => absurd h Bool.false_ne_true⟩

theorem TableLine.staZpX (zp : Byte) : TableLine.Statement (.staZpX zp) :=
  ⟨Nat.le_of_ble_eq_true rfl, Nat.le_of_ble_eq_true rfl, fun h => absurd h Bool.false_ne_true⟩

theorem TableLine.staAbs (addr : Word) : TableLine.Statement (.staAbs addr) :=
  ⟨Nat.le_of_ble_eq_true rfl, Nat.le_of_ble_eq_true rfl, fun h => absurd h Bool.false_ne_true⟩

theorem TableLine.staAbsX (addr : Word) : TableLine.Statement (.staAbsX addr) :=
  ⟨Nat.le_of_ble_eq_true rfl, Nat.le_of_ble_eq_true rfl, fun h => absurd h Bool.false_ne_true⟩

theorem TableLine.staAbsY (addr : Word) : TableLine.Statement (.staAbsY addr) :=
  ⟨Nat.le_of_ble_eq_true rfl, Nat.le_of_ble_eq_true rfl, fun h => absurd h Bool.false_ne_true⟩

theorem TableLine.staIndX (zp : Byte) : TableLine.Statement (.staIndX zp) :=
  ⟨Nat.le_of_ble_eq_true rfl, Nat.le_of_ble_eq_true rfl, fun h => absurd h Bool.false_ne_true⟩

theorem TableLine.staIndY (zp : Byte) : TableLine.Statement (.staIndY zp) :=
  ⟨Nat.le_of_ble_eq_true rfl, Nat.le_of_ble_eq_true rfl, fun h => absurd h Bool.false_ne_true⟩

theorem TableLine.stxZp (zp : Byte) : TableLine.Statement (.stxZp zp) :=
  ⟨Nat.le_of_ble_eq_true rfl, Nat.le_of_ble_eq_true rfl, fun h => absurd h Bool.false_ne_true⟩

theorem TableLine.stxZpY (zp : Byte) : TableLine.Statement (.stxZpY zp) :=
  ⟨Nat.le_of_ble_eq_true rfl, Nat.le_of_ble_eq_true rfl, fun h => absurd h Bool.false_ne_true⟩

theorem TableLine.stxAbs (addr : Word) : TableLine.Statement (.stxAbs addr) :=
  ⟨Nat.le_of_ble_eq_true rfl, Nat.le_of_ble_eq_true rfl, fun h => absurd h Bool.false_ne_true⟩

theorem TableLine.styZp (zp : Byte) : TableLine.Statement (.styZp zp) :=
  ⟨Nat.le_of_ble_eq_true rfl, Nat.le_of_ble_eq_true rfl, fun h => absurd h Bool.false_ne_true⟩

theorem TableLine.styZpX (zp : Byte) : TableLine.Statement (.styZpX zp) :=
  ⟨Nat.le_of_ble_eq_true rfl, Nat.le_of_ble_eq_true rfl, fun h => absurd h Bool.false_ne_true⟩

theorem TableLine.styAbs (addr : Word) : TableLine.Statement (.styAbs addr) :=
  ⟨Nat.le_of_ble_eq_true rfl, Nat.le_of_ble_eq_true rfl, fun h => absurd h Bool.false_ne_true⟩

theorem TableLine.tax : TableLine.Statement .tax :=
  ⟨Nat.le_of_ble_eq_true rfl, Nat.le_of_ble_eq_true rfl, fun h => absurd h Bool.false_ne_true⟩

theorem TableLine.tay : TableLine.Statement .tay :=
  ⟨Nat.le_of_ble_eq_true rfl, Nat.le_of_ble_eq_true rfl, fun h => absurd h Bool.false_ne_true⟩

theorem TableLine.txa : TableLine.Statement .txa :=
  ⟨Nat.le_of_ble_eq_true rfl, Nat.le_of_ble_eq_true rfl, fun h => absurd h Bool.false_ne_true⟩

theorem TableLine.tya : TableLine.Statement .tya :=
  ⟨Nat.le_of_ble_eq_true rfl, Nat.le_of_ble_eq_true rfl, fun h => absurd h Bool.false_ne_true⟩

theorem TableLine.tsx : TableLine.Statement .tsx :=
  ⟨Nat.le_of_ble_eq_true rfl, Nat.le_of_ble_eq_true rfl, fun h => absurd h Bool.false_ne_true⟩

theorem TableLine.txs : TableLine.Statement .txs :=
  ⟨Nat.le_of_ble_eq_true rfl, Nat.le_of_ble_eq_true rfl, fun h => absurd h Bool.false_ne_true⟩

theorem TableLine.adcImm (imm : Byte) : TableLine.Statement (.adcImm imm) :=
  ⟨Nat.le_of_ble_eq_true rfl, Nat.le_of_ble_eq_true rfl, fun h => absurd h Bool.false_ne_true⟩

theorem TableLine.adcZp (zp : Byte) : TableLine.Statement (.adcZp zp) :=
  ⟨Nat.le_of_ble_eq_true rfl, Nat.le_of_ble_eq_true rfl, fun h => absurd h Bool.false_ne_true⟩

theorem TableLine.adcZpX (zp : Byte) : TableLine.Statement (.adcZpX zp) :=
  ⟨Nat.le_of_ble_eq_true rfl, Nat.le_of_ble_eq_true rfl, fun h => absurd h Bool.false_ne_true⟩

theorem TableLine.adcAbs (addr : Word) : TableLine.Statement (.adcAbs addr) :=
  ⟨Nat.le_of_ble_eq_true rfl, Nat.le_of_ble_eq_true rfl, fun h => absurd h Bool.false_ne_true⟩

theorem TableLine.adcAbsX (addr : Word) : TableLine.Statement (.adcAbsX addr) :=
  ⟨Nat.le_of_ble_eq_true rfl, Nat.le_of_ble_eq_true rfl, fun _ => ⟨rfl, rfl⟩⟩

theorem TableLine.adcAbsY (addr : Word) : TableLine.Statement (.adcAbsY addr) :=
  ⟨Nat.le_of_ble_eq_true rfl, Nat.le_of_ble_eq_true rfl, fun _ => ⟨rfl, rfl⟩⟩

theorem TableLine.adcIndX (zp : Byte) : TableLine.Statement (.adcIndX zp) :=
  ⟨Nat.le_of_ble_eq_true rfl, Nat.le_of_ble_eq_true rfl, fun h => absurd h Bool.false_ne_true⟩

theorem TableLine.adcIndY (zp : Byte) : TableLine.Statement (.adcIndY zp) :=
  ⟨Nat.le_of_ble_eq_true rfl, Nat.le_of_ble_eq_true rfl, fun _ => ⟨rfl, rfl⟩⟩

theorem TableLine.sbcImm (imm : Byte) : TableLine.Statement (.sbcImm imm) :=
  ⟨Nat.le_of_ble_eq_true rfl, Nat.le_of_ble_eq_true rfl, fun h => absurd h Bool.false_ne_true⟩

theorem TableLine.sbcZp (zp : Byte) : TableLine.Statement (.sbcZp zp) :=
  ⟨Nat.le_of_ble_eq_true rfl, Nat.le_of_ble_eq_true rfl, fun h => absurd h Bool.false_ne_true⟩

theorem TableLine.sbcZpX (zp : Byte) : TableLine.Statement (.sbcZpX zp) :=
  ⟨Nat.le_of_ble_eq_true rfl, Nat.le_of_ble_eq_true rfl, fun h => absurd h Bool.false_ne_true⟩

theorem TableLine.sbcAbs (addr : Word) : TableLine.Statement (.sbcAbs addr) :=
  ⟨Nat.le_of_ble_eq_true rfl, Nat.le_of_ble_eq_true rfl, fun h => absurd h Bool.false_ne_true⟩

theorem TableLine.sbcAbsX (addr : Word) : TableLine.Statement (.sbcAbsX addr) :=
  ⟨Nat.le_of_ble_eq_true rfl, Nat.le_of_ble_eq_true rfl, fun _ => ⟨rfl, rfl⟩⟩

theorem TableLine.sbcAbsY (addr : Word) : TableLine.Statement (.sbcAbsY addr) :=
  ⟨Nat.le_of_ble_eq_true rfl, Nat.le_of_ble_eq_true rfl, fun _ => ⟨rfl, rfl⟩⟩

theorem TableLine.sbcIndX (zp : Byte) : TableLine.Statement (.sbcIndX zp) :=
  ⟨Nat.le_of_ble_eq_true rfl, Nat.le_of_ble_eq_true rfl, fun h => absurd h Bool.false_ne_true⟩

theorem TableLine.sbcIndY (zp : Byte) : TableLine.Statement (.sbcIndY zp) :=
  ⟨Nat.le_of_ble_eq_true rfl, Nat.le_of_ble_eq_true rfl, fun _ => ⟨rfl, rfl⟩⟩

theorem TableLine.incZp (zp : Byte) : TableLine.Statement (.incZp zp) :=
  ⟨Nat.le_of_ble_eq_true rfl, Nat.le_of_ble_eq_true rfl, fun h => absurd h Bool.false_ne_true⟩

theorem TableLine.incZpX (zp : Byte) : TableLine.Statement (.incZpX zp) :=
  ⟨Nat.le_of_ble_eq_true rfl, Nat.le_of_ble_eq_true rfl, fun h => absurd h Bool.false_ne_true⟩

theorem TableLine.incAbs (addr : Word) : TableLine.Statement (.incAbs addr) :=
  ⟨Nat.le_of_ble_eq_true rfl, Nat.le_of_ble_eq_true rfl, fun h => absurd h Bool.false_ne_true⟩

theorem TableLine.incAbsX (addr : Word) : TableLine.Statement (.incAbsX addr) :=
  ⟨Nat.le_of_ble_eq_true rfl, Nat.le_of_ble_eq_true rfl, fun h => absurd h Bool.false_ne_true⟩

theorem TableLine.decZp (zp : Byte) : TableLine.Statement (.decZp zp) :=
  ⟨Nat.le_of_ble_eq_true rfl, Nat.le_of_ble_eq_true rfl, fun h => absurd h Bool.false_ne_true⟩

theorem TableLine.decZpX (zp : Byte) : TableLine.Statement (.decZpX zp) :=
  ⟨Nat.le_of_ble_eq_true rfl, Nat.le_of_ble_eq_true rfl, fun h => absurd h Bool.false_ne_true⟩

theorem TableLine.decAbs (addr : Word) : TableLine.Statement (.decAbs addr) :=
  ⟨Nat.le_of_ble_eq_true rfl, Nat.le_of_ble_eq_true rfl, fun h => absurd h Bool.false_ne_true⟩

theorem TableLine.decAbsX (addr : Word) : TableLine.Statement (.decAbsX addr) :=
  ⟨Nat.le_of_ble_eq_true rfl, Nat.le_of_ble_eq_true rfl, fun h => absurd h Bool.false_ne_true⟩

theorem TableLine.inx : TableLine.Statement .inx :=
  ⟨Nat.le_of_ble_eq_true rfl, Nat.le_of_ble_eq_true rfl, fun h => absurd h Bool.false_ne_true⟩

theorem TableLine.iny : TableLine.Statement .iny :=
  ⟨Nat.le_of_ble_eq_true rfl, Nat.le_of_ble_eq_true rfl, fun h => absurd h Bool.false_ne_true⟩

theorem TableLine.dex : TableLine.Statement .dex :=
  ⟨Nat.le_of_ble_eq_true rfl, Nat.le_of_ble_eq_true rfl, fun h => absurd h Bool.false_ne_true⟩

theorem TableLine.dey : TableLine.Statement .dey :=
  ⟨Nat.le_of_ble_eq_true rfl, Nat.le_of_ble_eq_true rfl, fun h => absurd h Bool.false_ne_true⟩

theorem TableLine.aslAcc : TableLine.Statement .aslAcc :=
  ⟨Nat.le_of_ble_eq_true rfl, Nat.le_of_ble_eq_true rfl, fun h => absurd h Bool.false_ne_true⟩

theorem TableLine.aslZp (zp : Byte) : TableLine.Statement (.aslZp zp) :=
  ⟨Nat.le_of_ble_eq_true rfl, Nat.le_of_ble_eq_true rfl, fun h => absurd h Bool.false_ne_true⟩

theorem TableLine.aslZpX (zp : Byte) : TableLine.Statement (.aslZpX zp) :=
  ⟨Nat.le_of_ble_eq_true rfl, Nat.le_of_ble_eq_true rfl, fun h => absurd h Bool.false_ne_true⟩

theorem TableLine.aslAbs (addr : Word) : TableLine.Statement (.aslAbs addr) :=
  ⟨Nat.le_of_ble_eq_true rfl, Nat.le_of_ble_eq_true rfl, fun h => absurd h Bool.false_ne_true⟩

theorem TableLine.aslAbsX (addr : Word) : TableLine.Statement (.aslAbsX addr) :=
  ⟨Nat.le_of_ble_eq_true rfl, Nat.le_of_ble_eq_true rfl, fun h => absurd h Bool.false_ne_true⟩

theorem TableLine.lsrAcc : TableLine.Statement .lsrAcc :=
  ⟨Nat.le_of_ble_eq_true rfl, Nat.le_of_ble_eq_true rfl, fun h => absurd h Bool.false_ne_true⟩

theorem TableLine.lsrZp (zp : Byte) : TableLine.Statement (.lsrZp zp) :=
  ⟨Nat.le_of_ble_eq_true rfl, Nat.le_of_ble_eq_true rfl, fun h => absurd h Bool.false_ne_true⟩

theorem TableLine.lsrZpX (zp : Byte) : TableLine.Statement (.lsrZpX zp) :=
  ⟨Nat.le_of_ble_eq_true rfl, Nat.le_of_ble_eq_true rfl, fun h => absurd h Bool.false_ne_true⟩

theorem TableLine.lsrAbs (addr : Word) : TableLine.Statement (.lsrAbs addr) :=
  ⟨Nat.le_of_ble_eq_true rfl, Nat.le_of_ble_eq_true rfl, fun h => absurd h Bool.false_ne_true⟩

theorem TableLine.lsrAbsX (addr : Word) : TableLine.Statement (.lsrAbsX addr) :=
  ⟨Nat.le_of_ble_eq_true rfl, Nat.le_of_ble_eq_true rfl, fun h => absurd h Bool.false_ne_true⟩

theorem TableLine.rolAcc : TableLine.Statement .rolAcc :=
  ⟨Nat.le_of_ble_eq_true rfl, Nat.le_of_ble_eq_true rfl, fun h => absurd h Bool.false_ne_true⟩

theorem TableLine.rolZp (zp : Byte) : TableLine.Statement (.rolZp zp) :=
  ⟨Nat.le_of_ble_eq_true rfl, Nat.le_of_ble_eq_true rfl, fun h => absurd h Bool.false_ne_true⟩

theorem TableLine.rolZpX (zp : Byte) : TableLine.Statement (.rolZpX zp) :=
  ⟨Nat.le_of_ble_eq_true rfl, Nat.le_of_ble_eq_true rfl, fun h => absurd h Bool.false_ne_true⟩

theorem TableLine.rolAbs (addr : Word) : TableLine.Statement (.rolAbs addr) :=
  ⟨Nat.le_of_ble_eq_true rfl, Nat.le_of_ble_eq_true rfl, fun h => absurd h Bool.false_ne_true⟩

theorem TableLine.rolAbsX (addr : Word) : TableLine.Statement (.rolAbsX addr) :=
  ⟨Nat.le_of_ble_eq_true rfl, Nat.le_of_ble_eq_true rfl, fun h => absurd h Bool.false_ne_true⟩

theorem TableLine.rorAcc : TableLine.Statement .rorAcc :=
  ⟨Nat.le_of_ble_eq_true rfl, Nat.le_of_ble_eq_true rfl, fun h => absurd h Bool.false_ne_true⟩

theorem TableLine.rorZp (zp : Byte) : TableLine.Statement (.rorZp zp) :=
  ⟨Nat.le_of_ble_eq_true rfl, Nat.le_of_ble_eq_true rfl, fun h => absurd h Bool.false_ne_true⟩

theorem TableLine.rorZpX (zp : Byte) : TableLine.Statement (.rorZpX zp) :=
  ⟨Nat.le_of_ble_eq_true rfl, Nat.le_of_ble_eq_true rfl, fun h => absurd h Bool.false_ne_true⟩

theorem TableLine.rorAbs (addr : Word) : TableLine.Statement (.rorAbs addr) :=
  ⟨Nat.le_of_ble_eq_true rfl, Nat.le_of_ble_eq_true rfl, fun h => absurd h Bool.false_ne_true⟩

theorem TableLine.rorAbsX (addr : Word) : TableLine.Statement (.rorAbsX addr) :=
  ⟨Nat.le_of_ble_eq_true rfl, Nat.le_of_ble_eq_true rfl, fun h => absurd h Bool.false_ne_true⟩

theorem TableLine.andImm (imm : Byte) : TableLine.Statement (.andImm imm) :=
  ⟨Nat.le_of_ble_eq_true rfl, Nat.le_of_ble_eq_true rfl, fun h => absurd h Bool.false_ne_true⟩

theorem TableLine.andZp (zp : Byte) : TableLine.Statement (.andZp zp) :=
  ⟨Nat.le_of_ble_eq_true rfl, Nat.le_of_ble_eq_true rfl, fun h => absurd h Bool.false_ne_true⟩

theorem TableLine.andZpX (zp : Byte) : TableLine.Statement (.andZpX zp) :=
  ⟨Nat.le_of_ble_eq_true rfl, Nat.le_of_ble_eq_true rfl, fun h => absurd h Bool.false_ne_true⟩

theorem TableLine.andAbs (addr : Word) : TableLine.Statement (.andAbs addr) :=
  ⟨Nat.le_of_ble_eq_true rfl, Nat.le_of_ble_eq_true rfl, fun h => absurd h Bool.false_ne_true⟩

theorem TableLine.andAbsX (addr : Word) : TableLine.Statement (.andAbsX addr) :=
  ⟨Nat.le_of_ble_eq_true rfl, Nat.le_of_ble_eq_true rfl, fun _ => ⟨rfl, rfl⟩⟩

theorem TableLine.andAbsY (addr : Word) : TableLine.Statement (.andAbsY addr) :=
  ⟨Nat.le_of_ble_eq_true rfl, Nat.le_of_ble_eq_true rfl, fun _ => ⟨rfl, rfl⟩⟩

theorem TableLine.andIndX (zp : Byte) : TableLine.Statement (.andIndX zp) :=
  ⟨Nat.le_of_ble_eq_true rfl, Nat.le_of_ble_eq_true rfl, fun h => absurd h Bool.false_ne_true⟩

theorem TableLine.andIndY (zp : Byte) : TableLine.Statement (.andIndY zp) :=
  ⟨Nat.le_of_ble_eq_true rfl, Nat.le_of_ble_eq_true rfl, fun _ => ⟨rfl, rfl⟩⟩

theorem TableLine.oraImm (imm : Byte) : TableLine.Statement (.oraImm imm) :=
  ⟨Nat.le_of_ble_eq_true rfl, Nat.le_of_ble_eq_true rfl, fun h => absurd h Bool.false_ne_true⟩

theorem TableLine.oraZp (zp : Byte) : TableLine.Statement (.oraZp zp) :=
  ⟨Nat.le_of_ble_eq_true rfl, Nat.le_of_ble_eq_true rfl, fun h => absurd h Bool.false_ne_true⟩

theorem TableLine.oraZpX (zp : Byte) : TableLine.Statement (.oraZpX zp) :=
  ⟨Nat.le_of_ble_eq_true rfl, Nat.le_of_ble_eq_true rfl, fun h => absurd h Bool.false_ne_true⟩

theorem TableLine.oraAbs (addr : Word) : TableLine.Statement (.oraAbs addr) :=
  ⟨Nat.le_of_ble_eq_true rfl, Nat.le_of_ble_eq_true rfl, fun h => absurd h Bool.false_ne_true⟩

theorem TableLine.oraAbsX (addr : Word) : TableLine.Statement (.oraAbsX addr) :=
  ⟨Nat.le_of_ble_eq_true rfl, Nat.le_of_ble_eq_true rfl, fun _ => ⟨rfl, rfl⟩⟩

theorem TableLine.oraAbsY (addr : Word) : TableLine.Statement (.oraAbsY addr) :=
  ⟨Nat.le_of_ble_eq_true rfl, Nat.le_of_ble_eq_true rfl, fun _ => ⟨rfl, rfl⟩⟩

theorem TableLine.oraIndX (zp : Byte) : TableLine.Statement (.oraIndX zp) :=
  ⟨Nat.le_of_ble_eq_true rfl, Nat.le_of_ble_eq_true rfl, fun h => absurd h Bool.false_ne_true⟩

theorem TableLine.oraIndY (zp : Byte) : TableLine.Statement (.oraIndY zp) :=
  ⟨Nat.le_of_ble_eq_true rfl, Nat.le_of_ble_eq_true rfl, fun _ => ⟨rfl, rfl⟩⟩

theorem TableLine.eorImm (imm : Byte) : TableLine.Statement (.eorImm imm) :=
  ⟨Nat.le_of_ble_eq_true rfl, Nat.le_of_ble_eq_true rfl, fun h => absurd h Bool.false_ne_true⟩

theorem TableLine.eorZp (zp : Byte) : TableLine.Statement (.eorZp zp) :=
  ⟨Nat.le_of_ble_eq_true rfl, Nat.le_of_ble_eq_true rfl, fun h => absurd h Bool.false_ne_true⟩

theorem TableLine.eorZpX (zp : Byte) : TableLine.Statement (.eorZpX zp) :=
  ⟨Nat.le_of_ble_eq_true rfl, Nat.le_of_ble_eq_true rfl, fun h => absurd h Bool.false_ne_true⟩

theorem TableLine.eorAbs (addr : Word) : TableLine.Statement (.eorAbs addr) :=
  ⟨Nat.le_of_ble_eq_true rfl, Nat.le_of_ble_eq_true rfl, fun h => absurd h Bool.false_ne_true⟩

theorem TableLine.eorAbsX (addr : Word) : TableLine.Statement (.eorAbsX addr) :=
  ⟨Nat.le_of_ble_eq_true rfl, Nat.le_of_ble_eq_true rfl, fun _ => ⟨rfl, rfl⟩⟩

theorem TableLine.eorAbsY (addr : Word) : TableLine.Statement (.eorAbsY addr) :=
  ⟨Nat.le_of_ble_eq_true rfl, Nat.le_of_ble_eq_true rfl, fun _ => ⟨rfl, rfl⟩⟩

theorem TableLine.eorIndX (zp : Byte) : TableLine.Statement (.eorIndX zp) :=
  ⟨Nat.le_of_ble_eq_true rfl, Nat.le_of_ble_eq_true rfl, fun h => absurd h Bool.false_ne_true⟩

theorem TableLine.eorIndY (zp : Byte) : TableLine.Statement (.eorIndY zp) :=
  ⟨Nat.le_of_ble_eq_true rfl, Nat.le_of_ble_eq_true rfl, fun _ => ⟨rfl, rfl⟩⟩

theorem TableLine.cmpImm (imm : Byte) : TableLine.Statement (.cmpImm imm) :=
  ⟨Nat.le_of_ble_eq_true rfl, Nat.le_of_ble_eq_true rfl, fun h => absurd h Bool.false_ne_true⟩

theorem TableLine.cmpZp (zp : Byte) : TableLine.Statement (.cmpZp zp) :=
  ⟨Nat.le_of_ble_eq_true rfl, Nat.le_of_ble_eq_true rfl, fun h => absurd h Bool.false_ne_true⟩

theorem TableLine.cmpZpX (zp : Byte) : TableLine.Statement (.cmpZpX zp) :=
  ⟨Nat.le_of_ble_eq_true rfl, Nat.le_of_ble_eq_true rfl, fun h => absurd h Bool.false_ne_true⟩

theorem TableLine.cmpAbs (addr : Word) : TableLine.Statement (.cmpAbs addr) :=
  ⟨Nat.le_of_ble_eq_true rfl, Nat.le_of_ble_eq_true rfl, fun h => absurd h Bool.false_ne_true⟩

theorem TableLine.cmpAbsX (addr : Word) : TableLine.Statement (.cmpAbsX addr) :=
  ⟨Nat.le_of_ble_eq_true rfl, Nat.le_of_ble_eq_true rfl, fun _ => ⟨rfl, rfl⟩⟩

theorem TableLine.cmpAbsY (addr : Word) : TableLine.Statement (.cmpAbsY addr) :=
  ⟨Nat.le_of_ble_eq_true rfl, Nat.le_of_ble_eq_true rfl, fun _ => ⟨rfl, rfl⟩⟩

theorem TableLine.cmpIndX (zp : Byte) : TableLine.Statement (.cmpIndX zp) :=
  ⟨Nat.le_of_ble_eq_true rfl, Nat.le_of_ble_eq_true rfl, fun h => absurd h Bool.false_ne_true⟩

theorem TableLine.cmpIndY (zp : Byte) : TableLine.Statement (.cmpIndY zp) :=
  ⟨Nat.le_of_ble_eq_true rfl, Nat.le_of_ble_eq_true rfl, fun _ => ⟨rfl, rfl⟩⟩

theorem TableLine.cpxImm (imm : Byte) : TableLine.Statement (.cpxImm imm) :=
  ⟨Nat.le_of_ble_eq_true rfl, Nat.le_of_ble_eq_true rfl, fun h => absurd h Bool.false_ne_true⟩

theorem TableLine.cpxZp (zp : Byte) : TableLine.Statement (.cpxZp zp) :=
  ⟨Nat.le_of_ble_eq_true rfl, Nat.le_of_ble_eq_true rfl, fun h => absurd h Bool.false_ne_true⟩

theorem TableLine.cpxAbs (addr : Word) : TableLine.Statement (.cpxAbs addr) :=
  ⟨Nat.le_of_ble_eq_true rfl, Nat.le_of_ble_eq_true rfl, fun h => absurd h Bool.false_ne_true⟩

theorem TableLine.cpyImm (imm : Byte) : TableLine.Statement (.cpyImm imm) :=
  ⟨Nat.le_of_ble_eq_true rfl, Nat.le_of_ble_eq_true rfl, fun h => absurd h Bool.false_ne_true⟩

theorem TableLine.cpyZp (zp : Byte) : TableLine.Statement (.cpyZp zp) :=
  ⟨Nat.le_of_ble_eq_true rfl, Nat.le_of_ble_eq_true rfl, fun h => absurd h Bool.false_ne_true⟩

theorem TableLine.cpyAbs (addr : Word) : TableLine.Statement (.cpyAbs addr) :=
  ⟨Nat.le_of_ble_eq_true rfl, Nat.le_of_ble_eq_true rfl, fun h => absurd h Bool.false_ne_true⟩

theorem TableLine.bcc (disp : Byte) : TableLine.Statement (.bcc disp) :=
  ⟨Nat.le_of_ble_eq_true rfl, Nat.le_of_ble_eq_true rfl, fun h => absurd h Bool.false_ne_true⟩

theorem TableLine.bcs (disp : Byte) : TableLine.Statement (.bcs disp) :=
  ⟨Nat.le_of_ble_eq_true rfl, Nat.le_of_ble_eq_true rfl, fun h => absurd h Bool.false_ne_true⟩

theorem TableLine.beq (disp : Byte) : TableLine.Statement (.beq disp) :=
  ⟨Nat.le_of_ble_eq_true rfl, Nat.le_of_ble_eq_true rfl, fun h => absurd h Bool.false_ne_true⟩

theorem TableLine.bne (disp : Byte) : TableLine.Statement (.bne disp) :=
  ⟨Nat.le_of_ble_eq_true rfl, Nat.le_of_ble_eq_true rfl, fun h => absurd h Bool.false_ne_true⟩

theorem TableLine.bmi (disp : Byte) : TableLine.Statement (.bmi disp) :=
  ⟨Nat.le_of_ble_eq_true rfl, Nat.le_of_ble_eq_true rfl, fun h => absurd h Bool.false_ne_true⟩

theorem TableLine.bpl (disp : Byte) : TableLine.Statement (.bpl disp) :=
  ⟨Nat.le_of_ble_eq_true rfl, Nat.le_of_ble_eq_true rfl, fun h => absurd h Bool.false_ne_true⟩

theorem TableLine.bvc (disp : Byte) : TableLine.Statement (.bvc disp) :=
  ⟨Nat.le_of_ble_eq_true rfl, Nat.le_of_ble_eq_true rfl, fun h => absurd h Bool.false_ne_true⟩

theorem TableLine.bvs (disp : Byte) : TableLine.Statement (.bvs disp) :=
  ⟨Nat.le_of_ble_eq_true rfl, Nat.le_of_ble_eq_true rfl, fun h => absurd h Bool.false_ne_true⟩

theorem TableLine.jmpAbs (addr : Word) : TableLine.Statement (.jmpAbs addr) :=
  ⟨Nat.le_of_ble_eq_true rfl, Nat.le_of_ble_eq_true rfl, fun h => absurd h Bool.false_ne_true⟩

theorem TableLine.jmpInd (ptr : Word) : TableLine.Statement (.jmpInd ptr) :=
  ⟨Nat.le_of_ble_eq_true rfl, Nat.le_of_ble_eq_true rfl, fun h => absurd h Bool.false_ne_true⟩

theorem TableLine.jsr (addr : Word) : TableLine.Statement (.jsr addr) :=
  ⟨Nat.le_of_ble_eq_true rfl, Nat.le_of_ble_eq_true rfl, fun h => absurd h Bool.false_ne_true⟩

theorem TableLine.rts : TableLine.Statement .rts :=
  ⟨Nat.le_of_ble_eq_true rfl, Nat.le_of_ble_eq_true rfl, fun h => absurd h Bool.false_ne_true⟩

theorem TableLine.pha : TableLine.Statement .pha :=
  ⟨Nat.le_of_ble_eq_true rfl, Nat.le_of_ble_eq_true rfl, fun h => absurd h Bool.false_ne_true⟩

theorem TableLine.pla : TableLine.Statement .pla :=
  ⟨Nat.le_of_ble_eq_true rfl, Nat.le_of_ble_eq_true rfl, fun h => absurd h Bool.false_ne_true⟩

theorem TableLine.php : TableLine.Statement .php :=
  ⟨Nat.le_of_ble_eq_true rfl, Nat.le_of_ble_eq_true rfl, fun h => absurd h Bool.false_ne_true⟩

theorem TableLine.plp : TableLine.Statement .plp :=
  ⟨Nat.le_of_ble_eq_true rfl, Nat.le_of_ble_eq_true rfl, fun h => absurd h Bool.false_ne_true⟩

theorem TableLine.clc : TableLine.Statement .clc :=
  ⟨Nat.le_of_ble_eq_true rfl, Nat.le_of_ble_eq_true rfl, fun h => absurd h Bool.false_ne_true⟩

theorem TableLine.sec : TableLine.Statement .sec :=
  ⟨Nat.le_of_ble_eq_true rfl, Nat.le_of_ble_eq_true rfl, fun h => absurd h Bool.false_ne_true⟩

theorem TableLine.cli : TableLine.Statement .cli :=
  ⟨Nat.le_of_ble_eq_true rfl, Nat.le_of_ble_eq_true rfl, fun h => absurd h Bool.false_ne_true⟩

theorem TableLine.sei : TableLine.Statement .sei :=
  ⟨Nat.le_of_ble_eq_true rfl, Nat.le_of_ble_eq_true rfl, fun h => absurd h Bool.false_ne_true⟩

theorem TableLine.cld : TableLine.Statement .cld :=
  ⟨Nat.le_of_ble_eq_true rfl, Nat.le_of_ble_eq_true rfl, fun h => absurd h Bool.false_ne_true⟩

theorem TableLine.sed : TableLine.Statement .sed :=
  ⟨Nat.le_of_ble_eq_true rfl, Nat.le_of_ble_eq_true rfl, fun h => absurd h Bool.false_ne_true⟩

theorem TableLine.clv : TableLine.Statement .clv :=
  ⟨Nat.le_of_ble_eq_true rfl, Nat.le_of_ble_eq_true rfl, fun h => absurd h Bool.false_ne_true⟩

theorem TableLine.bitZp (zp : Byte) : TableLine.Statement (.bitZp zp) :=
  ⟨Nat.le_of_ble_eq_true rfl, Nat.le_of_ble_eq_true rfl, fun h => absurd h Bool.false_ne_true⟩

theorem TableLine.bitAbs (addr : Word) : TableLine.Statement (.bitAbs addr) :=
  ⟨Nat.le_of_ble_eq_true rfl, Nat.le_of_ble_eq_true rfl, fun h => absurd h Bool.false_ne_true⟩

theorem TableLine.nop : TableLine.Statement .nop :=
  ⟨Nat.le_of_ble_eq_true rfl, Nat.le_of_ble_eq_true rfl, fun h => absurd h Bool.false_ne_true⟩

theorem TableLine.brk : TableLine.Statement .brk :=
  ⟨Nat.le_of_ble_eq_true rfl, Nat.le_of_ble_eq_true rfl, fun h => absurd h Bool.false_ne_true⟩

theorem TableLine.rti : TableLine.Statement .rti :=
  ⟨Nat.le_of_ble_eq_true rfl, Nat.le_of_ble_eq_true rfl, fun h => absurd h Bool.false_ne_true⟩

end Sys2Proof.Laws
end

