-- ==== Sys2Proof/Laws/Step.lean ====
section
/-! SUPPORT. What a step can do, said once: it fetches an instruction and runs its meaning, and it accounts for every
transaction. -/

namespace Sys2Proof.Laws

open Machine

theorem operandBytes_length_le (i : Instr) : (operandBytes i).length ≤ 2 := by
  cases i <;> exact Nat.le_of_ble_eq_true rfl

/-- A running step is the fetch and then the meaning. -/
theorem step_of_running {s : State} (h : s.run = .running) :
    step s = match fetchInstr (beginStep s) with
      | .ok (i, t) => exec i t
      | .error f => .fault f := by
  cases s
  cases h
  rfl

/-- A fetch that gives an instruction read its bytes, opcode first, and nothing else. -/
theorem fetchInstr_accounts {s t : State} {i : Instr} (h : fetchInstr s = .ok (i, t)) :
    Accounts (1 + (operandBytes i).length) s t ∧ 1 ≤ t.trace.length := by
  simp only [fetchInstr] at h
  split at h
  · cases h
  · rename_i e he
    have hs := lookupOpcode_sound he
    have hit := Except.ok.inj h
    cases e with
    | noOperand i' =>
      obtain ⟨rfl, rfl⟩ := Prod.mk.inj hit
      exact ⟨(accounts_fetch8 s).mono (by omega), by simp⟩
    | byteOperand make =>
      obtain ⟨rfl, rfl⟩ := Prod.mk.inj hit
      have hb := hs (fetch8 (fetch8 s).2).1
      simp only [fetchedBytes, List.cons.injEq] at hb
      refine ⟨((accounts_fetch8 s).trans (accounts_fetch8 _)).mono ?_, by simp⟩
      rw [hb.2]
      simp
    | wordOperand make =>
      obtain ⟨rfl, rfl⟩ := Prod.mk.inj hit
      have hb := hs (mkWord (fetch8 (fetch8 (fetch8 s).2).2).1 (fetch8 (fetch8 s).2).1)
      simp only [fetchedBytes, List.cons.injEq] at hb
      refine ⟨((accounts_fetch8 s).trans ((accounts_fetch8 _).trans (accounts_fetch8 _))).mono ?_, by simp⟩
      rw [hb.2]
      simp

/-- A step that completes began in `Running`, issued one to six transactions and accounts for them. -/
theorem step_accounts {s t : State} (h : step s = .next t) :
    s.run = .running ∧ Accounts 6 (beginStep s) t ∧ 1 ≤ t.trace.length := by
  cases hr : s.run with
  | halted => simp [step, hr] at h
  | faulted opcode addr => simp [step, hr] at h
  | running =>
    rw [step_of_running hr] at h
    split at h
    · rename_i i u hf
      obtain ⟨t', he, ha⟩ := exec_accounts i u
      obtain rfl : t = t' := by simpa [h] using he
      obtain ⟨hacc, hlen⟩ := fetchInstr_accounts hf
      have hle := operandBytes_length_le i
      obtain ⟨l, hl, -⟩ := ha.record
      exact ⟨rfl, (hacc.trans ha).mono (by simp only [transactionBound]; omega), by simp [hl]; omega⟩
    · cases h

end Sys2Proof.Laws
end

