-- ==== Sys2Proof/Tests/Slice0.lean ====
section
/-! SUPPORT. Tests. Expected results come from the spec: the opcode map of 30_encoding.md R65, the worked examples and derived
vectors of 95_test_vectors.md (a test is named by its vector's id there), and
values worked out by hand where it says so. And for every statement with hypotheses, a witness that meets them. -/

namespace Sys2Proof.Tests

open Machine Safety

/-! ## Well-formedness: pairings that R66's table leaves empty are refused -/

theorem test_refuses_store_to_immediate : Form.wellFormed ⟨.sta, .immediate⟩ = false := by decide
theorem test_refuses_ldx_zeroPageX : Form.wellFormed ⟨.ldx, .zeroPageX⟩ = false := by decide
theorem test_refuses_ldy_absoluteY : Form.wellFormed ⟨.ldy, .absoluteY⟩ = false := by decide
theorem test_refuses_stx_absoluteY : Form.wellFormed ⟨.stx, .absoluteY⟩ = false := by decide
theorem test_refuses_bit_immediate : Form.wellFormed ⟨.bit, .immediate⟩ = false := by decide
theorem test_refuses_inc_accumulator : Form.wellFormed ⟨.inc, .accumulator⟩ = false := by decide
theorem test_refuses_jsr_indirect : Form.wellFormed ⟨.jsr, .indirect⟩ = false := by decide
theorem test_refuses_branch_absolute : Form.wellFormed ⟨.bne, .absolute⟩ = false := by decide
theorem test_refuses_implied_lda : Form.wellFormed ⟨.lda, .implied⟩ = false := by decide
theorem test_accepts_a_row : Form.wellFormed ⟨.ldx, .zeroPageY⟩ = true ∧ (Instr.jmpInd 0x02FF#16).wellFormed = true := by
  decide

/-! ## Decoding: every defined cell of R65's opcode map, with operand bytes 3C, or 34 12 for the word 0x1234 -/

theorem test_decode_row_0 :
    decode [0x00#8] = .ok .brk ∧
    decode [0x01#8, 0x3C#8] = .ok (.oraIndX 0x3C#8) ∧
    decode [0x05#8, 0x3C#8] = .ok (.oraZp 0x3C#8) ∧
    decode [0x06#8, 0x3C#8] = .ok (.aslZp 0x3C#8) ∧
    decode [0x08#8] = .ok .php ∧
    decode [0x09#8, 0x3C#8] = .ok (.oraImm 0x3C#8) ∧
    decode [0x0A#8] = .ok .aslAcc ∧
    decode [0x0D#8, 0x34#8, 0x12#8] = .ok (.oraAbs 0x1234#16) ∧
    decode [0x0E#8, 0x34#8, 0x12#8] = .ok (.aslAbs 0x1234#16) := by
  decide

theorem test_decode_row_1 :
    decode [0x10#8, 0x3C#8] = .ok (.bpl 0x3C#8) ∧
    decode [0x11#8, 0x3C#8] = .ok (.oraIndY 0x3C#8) ∧
    decode [0x15#8, 0x3C#8] = .ok (.oraZpX 0x3C#8) ∧
    decode [0x16#8, 0x3C#8] = .ok (.aslZpX 0x3C#8) ∧
    decode [0x18#8] = .ok .clc ∧
    decode [0x19#8, 0x34#8, 0x12#8] = .ok (.oraAbsY 0x1234#16) ∧
    decode [0x1D#8, 0x34#8, 0x12#8] = .ok (.oraAbsX 0x1234#16) ∧
    decode [0x1E#8, 0x34#8, 0x12#8] = .ok (.aslAbsX 0x1234#16) := by
  decide

theorem test_decode_row_2 :
    decode [0x20#8, 0x34#8, 0x12#8] = .ok (.jsr 0x1234#16) ∧
    decode [0x21#8, 0x3C#8] = .ok (.andIndX 0x3C#8) ∧
    decode [0x24#8, 0x3C#8] = .ok (.bitZp 0x3C#8) ∧
    decode [0x25#8, 0x3C#8] = .ok (.andZp 0x3C#8) ∧
    decode [0x26#8, 0x3C#8] = .ok (.rolZp 0x3C#8) ∧
    decode [0x28#8] = .ok .plp ∧
    decode [0x29#8, 0x3C#8] = .ok (.andImm 0x3C#8) ∧
    decode [0x2A#8] = .ok .rolAcc ∧
    decode [0x2C#8, 0x34#8, 0x12#8] = .ok (.bitAbs 0x1234#16) ∧
    decode [0x2D#8, 0x34#8, 0x12#8] = .ok (.andAbs 0x1234#16) ∧
    decode [0x2E#8, 0x34#8, 0x12#8] = .ok (.rolAbs 0x1234#16) := by
  decide

theorem test_decode_row_3 :
    decode [0x30#8, 0x3C#8] = .ok (.bmi 0x3C#8) ∧
    decode [0x31#8, 0x3C#8] = .ok (.andIndY 0x3C#8) ∧
    decode [0x35#8, 0x3C#8] = .ok (.andZpX 0x3C#8) ∧
    decode [0x36#8, 0x3C#8] = .ok (.rolZpX 0x3C#8) ∧
    decode [0x38#8] = .ok .sec ∧
    decode [0x39#8, 0x34#8, 0x12#8] = .ok (.andAbsY 0x1234#16) ∧
    decode [0x3D#8, 0x34#8, 0x12#8] = .ok (.andAbsX 0x1234#16) ∧
    decode [0x3E#8, 0x34#8, 0x12#8] = .ok (.rolAbsX 0x1234#16) := by
  decide

theorem test_decode_row_4 :
    decode [0x40#8] = .ok .rti ∧
    decode [0x41#8, 0x3C#8] = .ok (.eorIndX 0x3C#8) ∧
    decode [0x45#8, 0x3C#8] = .ok (.eorZp 0x3C#8) ∧
    decode [0x46#8, 0x3C#8] = .ok (.lsrZp 0x3C#8) ∧
    decode [0x48#8] = .ok .pha ∧
    decode [0x49#8, 0x3C#8] = .ok (.eorImm 0x3C#8) ∧
    decode [0x4A#8] = .ok .lsrAcc ∧
    decode [0x4C#8, 0x34#8, 0x12#8] = .ok (.jmpAbs 0x1234#16) ∧
    decode [0x4D#8, 0x34#8, 0x12#8] = .ok (.eorAbs 0x1234#16) ∧
    decode [0x4E#8, 0x34#8, 0x12#8] = .ok (.lsrAbs 0x1234#16) := by
  decide

theorem test_decode_row_5 :
    decode [0x50#8, 0x3C#8] = .ok (.bvc 0x3C#8) ∧
    decode [0x51#8, 0x3C#8] = .ok (.eorIndY 0x3C#8) ∧
    decode [0x55#8, 0x3C#8] = .ok (.eorZpX 0x3C#8) ∧
    decode [0x56#8, 0x3C#8] = .ok (.lsrZpX 0x3C#8) ∧
    decode [0x58#8] = .ok .cli ∧
    decode [0x59#8, 0x34#8, 0x12#8] = .ok (.eorAbsY 0x1234#16) ∧
    decode [0x5D#8, 0x34#8, 0x12#8] = .ok (.eorAbsX 0x1234#16) ∧
    decode [0x5E#8, 0x34#8, 0x12#8] = .ok (.lsrAbsX 0x1234#16) := by
  decide

theorem test_decode_row_6 :
    decode [0x60#8] = .ok .rts ∧
    decode [0x61#8, 0x3C#8] = .ok (.adcIndX 0x3C#8) ∧
    decode [0x65#8, 0x3C#8] = .ok (.adcZp 0x3C#8) ∧
    decode [0x66#8, 0x3C#8] = .ok (.rorZp 0x3C#8) ∧
    decode [0x68#8] = .ok .pla ∧
    decode [0x69#8, 0x3C#8] = .ok (.adcImm 0x3C#8) ∧
    decode [0x6A#8] = .ok .rorAcc ∧
    decode [0x6C#8, 0x34#8, 0x12#8] = .ok (.jmpInd 0x1234#16) ∧
    decode [0x6D#8, 0x34#8, 0x12#8] = .ok (.adcAbs 0x1234#16) ∧
    decode [0x6E#8, 0x34#8, 0x12#8] = .ok (.rorAbs 0x1234#16) := by
  decide

theorem test_decode_row_7 :
    decode [0x70#8, 0x3C#8] = .ok (.bvs 0x3C#8) ∧
    decode [0x71#8, 0x3C#8] = .ok (.adcIndY 0x3C#8) ∧
    decode [0x75#8, 0x3C#8] = .ok (.adcZpX 0x3C#8) ∧
    decode [0x76#8, 0x3C#8] = .ok (.rorZpX 0x3C#8) ∧
    decode [0x78#8] = .ok .sei ∧
    decode [0x79#8, 0x34#8, 0x12#8] = .ok (.adcAbsY 0x1234#16) ∧
    decode [0x7D#8, 0x34#8, 0x12#8] = .ok (.adcAbsX 0x1234#16) ∧
    decode [0x7E#8, 0x34#8, 0x12#8] = .ok (.rorAbsX 0x1234#16) := by
  decide

theorem test_decode_row_8 :
    decode [0x81#8, 0x3C#8] = .ok (.staIndX 0x3C#8) ∧
    decode [0x84#8, 0x3C#8] = .ok (.styZp 0x3C#8) ∧
    decode [0x85#8, 0x3C#8] = .ok (.staZp 0x3C#8) ∧
    decode [0x86#8, 0x3C#8] = .ok (.stxZp 0x3C#8) ∧
    decode [0x88#8] = .ok .dey ∧
    decode [0x8A#8] = .ok .txa ∧
    decode [0x8C#8, 0x34#8, 0x12#8] = .ok (.styAbs 0x1234#16) ∧
    decode [0x8D#8, 0x34#8, 0x12#8] = .ok (.staAbs 0x1234#16) ∧
    decode [0x8E#8, 0x34#8, 0x12#8] = .ok (.stxAbs 0x1234#16) := by
  decide

theorem test_decode_row_9 :
    decode [0x90#8, 0x3C#8] = .ok (.bcc 0x3C#8) ∧
    decode [0x91#8, 0x3C#8] = .ok (.staIndY 0x3C#8) ∧
    decode [0x94#8, 0x3C#8] = .ok (.styZpX 0x3C#8) ∧
    decode [0x95#8, 0x3C#8] = .ok (.staZpX 0x3C#8) ∧
    decode [0x96#8, 0x3C#8] = .ok (.stxZpY 0x3C#8) ∧
    decode [0x98#8] = .ok .tya ∧
    decode [0x99#8, 0x34#8, 0x12#8] = .ok (.staAbsY 0x1234#16) ∧
    decode [0x9A#8] = .ok .txs ∧
    decode [0x9D#8, 0x34#8, 0x12#8] = .ok (.staAbsX 0x1234#16) := by
  decide

theorem test_decode_row_A :
    decode [0xA0#8, 0x3C#8] = .ok (.ldyImm 0x3C#8) ∧
    decode [0xA1#8, 0x3C#8] = .ok (.ldaIndX 0x3C#8) ∧
    decode [0xA2#8, 0x3C#8] = .ok (.ldxImm 0x3C#8) ∧
    decode [0xA4#8, 0x3C#8] = .ok (.ldyZp 0x3C#8) ∧
    decode [0xA5#8, 0x3C#8] = .ok (.ldaZp 0x3C#8) ∧
    decode [0xA6#8, 0x3C#8] = .ok (.ldxZp 0x3C#8) ∧
    decode [0xA8#8] = .ok .tay ∧
    decode [0xA9#8, 0x3C#8] = .ok (.ldaImm 0x3C#8) ∧
    decode [0xAA#8] = .ok .tax ∧
    decode [0xAC#8, 0x34#8, 0x12#8] = .ok (.ldyAbs 0x1234#16) ∧
    decode [0xAD#8, 0x34#8, 0x12#8] = .ok (.ldaAbs 0x1234#16) ∧
    decode [0xAE#8, 0x34#8, 0x12#8] = .ok (.ldxAbs 0x1234#16) := by
  decide

theorem test_decode_row_B :
    decode [0xB0#8, 0x3C#8] = .ok (.bcs 0x3C#8) ∧
    decode [0xB1#8, 0x3C#8] = .ok (.ldaIndY 0x3C#8) ∧
    decode [0xB4#8, 0x3C#8] = .ok (.ldyZpX 0x3C#8) ∧
    decode [0xB5#8, 0x3C#8] = .ok (.ldaZpX 0x3C#8) ∧
    decode [0xB6#8, 0x3C#8] = .ok (.ldxZpY 0x3C#8) ∧
    decode [0xB8#8] = .ok .clv ∧
    decode [0xB9#8, 0x34#8, 0x12#8] = .ok (.ldaAbsY 0x1234#16) ∧
    decode [0xBA#8] = .ok .tsx ∧
    decode [0xBC#8, 0x34#8, 0x12#8] = .ok (.ldyAbsX 0x1234#16) ∧
    decode [0xBD#8, 0x34#8, 0x12#8] = .ok (.ldaAbsX 0x1234#16) ∧
    decode [0xBE#8, 0x34#8, 0x12#8] = .ok (.ldxAbsY 0x1234#16) := by
  decide

theorem test_decode_row_C :
    decode [0xC0#8, 0x3C#8] = .ok (.cpyImm 0x3C#8) ∧
    decode [0xC1#8, 0x3C#8] = .ok (.cmpIndX 0x3C#8) ∧
    decode [0xC4#8, 0x3C#8] = .ok (.cpyZp 0x3C#8) ∧
    decode [0xC5#8, 0x3C#8] = .ok (.cmpZp 0x3C#8) ∧
    decode [0xC6#8, 0x3C#8] = .ok (.decZp 0x3C#8) ∧
    decode [0xC8#8] = .ok .iny ∧
    decode [0xC9#8, 0x3C#8] = .ok (.cmpImm 0x3C#8) ∧
    decode [0xCA#8] = .ok .dex ∧
    decode [0xCC#8, 0x34#8, 0x12#8] = .ok (.cpyAbs 0x1234#16) ∧
    decode [0xCD#8, 0x34#8, 0x12#8] = .ok (.cmpAbs 0x1234#16) ∧
    decode [0xCE#8, 0x34#8, 0x12#8] = .ok (.decAbs 0x1234#16) := by
  decide

theorem test_decode_row_D :
    decode [0xD0#8, 0x3C#8] = .ok (.bne 0x3C#8) ∧
    decode [0xD1#8, 0x3C#8] = .ok (.cmpIndY 0x3C#8) ∧
    decode [0xD5#8, 0x3C#8] = .ok (.cmpZpX 0x3C#8) ∧
    decode [0xD6#8, 0x3C#8] = .ok (.decZpX 0x3C#8) ∧
    decode [0xD8#8] = .ok .cld ∧
    decode [0xD9#8, 0x34#8, 0x12#8] = .ok (.cmpAbsY 0x1234#16) ∧
    decode [0xDD#8, 0x34#8, 0x12#8] = .ok (.cmpAbsX 0x1234#16) ∧
    decode [0xDE#8, 0x34#8, 0x12#8] = .ok (.decAbsX 0x1234#16) := by
  decide

theorem test_decode_row_E :
    decode [0xE0#8, 0x3C#8] = .ok (.cpxImm 0x3C#8) ∧
    decode [0xE1#8, 0x3C#8] = .ok (.sbcIndX 0x3C#8) ∧
    decode [0xE4#8, 0x3C#8] = .ok (.cpxZp 0x3C#8) ∧
    decode [0xE5#8, 0x3C#8] = .ok (.sbcZp 0x3C#8) ∧
    decode [0xE6#8, 0x3C#8] = .ok (.incZp 0x3C#8) ∧
    decode [0xE8#8] = .ok .inx ∧
    decode [0xE9#8, 0x3C#8] = .ok (.sbcImm 0x3C#8) ∧
    decode [0xEA#8] = .ok .nop ∧
    decode [0xEC#8, 0x34#8, 0x12#8] = .ok (.cpxAbs 0x1234#16) ∧
    decode [0xED#8, 0x34#8, 0x12#8] = .ok (.sbcAbs 0x1234#16) ∧
    decode [0xEE#8, 0x34#8, 0x12#8] = .ok (.incAbs 0x1234#16) := by
  decide

theorem test_decode_row_F :
    decode [0xF0#8, 0x3C#8] = .ok (.beq 0x3C#8) ∧
    decode [0xF1#8, 0x3C#8] = .ok (.sbcIndY 0x3C#8) ∧
    decode [0xF5#8, 0x3C#8] = .ok (.sbcZpX 0x3C#8) ∧
    decode [0xF6#8, 0x3C#8] = .ok (.incZpX 0x3C#8) ∧
    decode [0xF8#8] = .ok .sed ∧
    decode [0xF9#8, 0x34#8, 0x12#8] = .ok (.sbcAbsY 0x1234#16) ∧
    decode [0xFD#8, 0x34#8, 0x12#8] = .ok (.sbcAbsX 0x1234#16) ∧
    decode [0xFE#8, 0x34#8, 0x12#8] = .ok (.incAbsX 0x1234#16) := by
  decide

theorem test_decode_undefined : decode [0x02#8, 0x10#8] = .error (.undefinedOpcode 0x02#8) ∧
    decode [0xFF#8] = .error (.undefinedOpcode 0xFF#8) ∧ decode [] = .error .noOpcode ∧
    decode [0xAD#8, 0x34#8] = .error (.truncated 0xAD#8) := by
  decide

/-- No low nibble stands twice in a row of the map. -/
theorem test_map_rows_have_no_double : ∀ row ∈ opcodeMap, (row.map Prod.fst).Nodup := by
  decide

theorem test_encode : encode (.jmpInd 0x02FF#16) = [0x6C#8, 0xFF#8, 0x02#8] ∧ encode .brk = [0x00#8, 0x00#8] ∧
    encode (.bne 0xED#8) = [0xD0#8, 0xED#8] ∧ encode .tax = [0xAA#8] := by
  decide

/-- The table's numbering: the first byte is bits 7..0; bits from `nbits` up are 0. -/
theorem test_decodeTableWord : decodeTableWord 24 0x02FF6C = some (.jmpInd 0x02FF#16) ∧
    decodeTableWord 8 0x12AA = some .tax ∧ decodeTableWord 8 0xFFA9 = some (.ldaImm 0x00#8) ∧
    decodeTableWord 8 0x02 = none := by
  decide

/-! ## One step -/

/-- The state `S0` of 95_test_vectors.md: after reset with `ENTRY_PC = 0x0600`. -/
def s0 : State := State.resetWith 0x0600#16 []

/-- A state with memory cells set and bytes placed at its PC. -/
def load (bytes : List Byte) (cells : List (Word × Byte)) (s : State) : State :=
  { s with mem := storeBytes s.pc bytes (cells.foldl (fun m cell => m.write cell.1 cell.2) s.mem) }

/-- Whether two outcomes of a step are the same, by evaluation. -/
def sameOutcome : Result → Result → Bool
  | .next t, .next t' => t == t'
  | .fault f, .fault f' => f == f'
  | .refused r, .refused r' => r == r'
  | _, _ => false

theorem eq_of_sameOutcome {r r' : Result} (h : sameOutcome r r' = true) : r = r' := by
  cases r <;> cases r' <;> simp_all [sameOutcome]

/-- A vector holds: the bytes fetched, the memory premises, the start's difference from `S0`, the end's difference from the
start, the status byte at the end, the cycles, and the transactions after the fetches. Nothing else has changed. -/
def runs (bytes : List Byte) (cells : List (Word × Byte)) (change expect : State → State) (p : Byte) (cycles : Nat)
    (after : List Transaction) : Bool :=
  let s := load bytes cells (change s0)
  match step s with
  | .next t =>
    t.trace == fetchReads s.pc bytes ++ after && 
      { t with mem := s.mem, trace := [] } == expect { s with cyc := cycles } && statusByte t == p &&
      replay t.trace s.mem == some t.mem
  | .fault _ | .refused _ => false

/-! ### Loads, stores, transfers -/

/-- `LDA #$80`. -/
theorem test_S1_03 : runs [0xA9#8, 0x80#8] []
    (fun s => s) (fun s => { s with a := 0x80#8, n := true, pc := 0x0602#16 })
    0xA4#8 2 [] = true := by
  decide

/-- `LDA $10`. -/
theorem test_AM_02 : runs [0xA5#8, 0x10#8] [(0x0010#16, 0xAA#8)]
    (fun s => s) (fun s => { s with a := 0xAA#8, n := true, pc := 0x0602#16 })
    0xA4#8 3 [.read 0x0010#16 0xAA#8] = true := by
  decide

/-- `LDA $FF,X`. -/
theorem test_AM_04 : runs [0xB5#8, 0xFF#8] [(0x0001#16, 0x2C#8), (0x0101#16, 0xEE#8)]
    (fun s => { s with x := 0x02#8 })
    (fun s => { s with a := 0x2C#8, pc := 0x0602#16 })
    0x24#8 4 [.read 0x0001#16 0x2C#8] = true := by
  decide

/-- `LDA $1234`. -/
theorem test_AM_22 : runs [0xAD#8, 0x34#8, 0x12#8] [(0x1234#16, 0x77#8)]
    (fun s => { s with pc := 0xFFFE#16 })
    (fun s => { s with a := 0x77#8, pc := 0x0001#16 })
    0x24#8 4 [.read 0x1234#16 0x77#8] = true := by
  decide

/-- `LDA $02F0,X`. -/
theorem test_AM_09 : runs [0xBD#8, 0xF0#8, 0x02#8] [(0x0310#16, 0x22#8)]
    (fun s => { s with x := 0x20#8 })
    (fun s => { s with a := 0x22#8, pc := 0x0603#16 })
    0x24#8 5 [.read 0x0310#16 0x22#8] = true := by
  decide

/-- `LDA $FFFF,X`. -/
theorem test_AM_10 : runs [0xBD#8, 0xFF#8, 0xFF#8] [(0x0000#16, 0x42#8)]
    (fun s => { s with x := 0x01#8 })
    (fun s => { s with a := 0x42#8, pc := 0x0603#16 })
    0x24#8 5 [.read 0x0000#16 0x42#8] = true := by
  decide

/-- `LDA $0200,Y`. -/
theorem test_AM_11 : runs [0xB9#8, 0x00#8, 0x02#8] [(0x02FF#16, 0x11#8)]
    (fun s => { s with y := 0xFF#8 })
    (fun s => { s with a := 0x11#8, pc := 0x0603#16 })
    0x24#8 4 [.read 0x02FF#16 0x11#8] = true := by
  decide

/-- `LDA $0201,Y`. -/
theorem test_AM_12 : runs [0xB9#8, 0x01#8, 0x02#8] [(0x0300#16, 0x33#8)]
    (fun s => { s with y := 0xFF#8 })
    (fun s => { s with a := 0x33#8, pc := 0x0603#16 })
    0x24#8 5 [.read 0x0300#16 0x33#8] = true := by
  decide

/-- `LDA ($FE,X)`. -/
theorem test_AM_14 : runs [0xA1#8, 0xFE#8] [(0x0000#16, 0x12#8), (0x00FF#16, 0x34#8), (0x0100#16, 0xEE#8),
      (0x1234#16, 0x99#8)]
    (fun s => { s with x := 0x01#8 })
    (fun s => { s with a := 0x99#8, n := true, pc := 0x0602#16 })
    0xA4#8 6 [.read 0x00FF#16 0x34#8, .read 0x0000#16 0x12#8, .read 0x1234#16 0x99#8] = true := by
  decide

/-- `LDA ($10),Y`. -/
theorem test_AM_16 : runs [0xB1#8, 0x10#8] [(0x0010#16, 0xF8#8), (0x0011#16, 0x02#8), (0x0308#16, 0x44#8)]
    (fun s => { s with y := 0x10#8 })
    (fun s => { s with a := 0x44#8, pc := 0x0602#16 })
    0x24#8 6 [.read 0x0010#16 0xF8#8, .read 0x0011#16 0x02#8, .read 0x0308#16 0x44#8] = true := by
  decide

/-- `LDA ($FF),Y`. -/
theorem test_AM_17 : runs [0xB1#8, 0xFF#8] [(0x0000#16, 0x04#8), (0x00FF#16, 0x00#8), (0x0100#16, 0xEE#8),
      (0x0400#16, 0x3C#8)]
    (fun s => { s with y := 0x00#8 })
    (fun s => { s with a := 0x3C#8, pc := 0x0602#16 })
    0x24#8 5 [.read 0x00FF#16 0x00#8, .read 0x0000#16 0x04#8, .read 0x0400#16 0x3C#8] = true := by
  decide

/-- `LDX #$00`. -/
theorem test_LS_01 : runs [0xA2#8, 0x00#8] []
    (fun s => { s with x := 0x11#8 })
    (fun s => { s with x := 0x00#8, z := true, pc := 0x0602#16 })
    0x26#8 2 [] = true := by
  decide

/-- `LDX $80,Y`. -/
theorem test_AM_06 : runs [0xB6#8, 0x80#8] [(0x007F#16, 0x2E#8), (0x017F#16, 0xEE#8)]
    (fun s => { s with y := 0xFF#8 })
    (fun s => { s with x := 0x2E#8, pc := 0x0602#16 })
    0x24#8 4 [.read 0x007F#16 0x2E#8] = true := by
  decide

/-- `LDX $02F0,Y`. -/
theorem test_LS_06 : runs [0xBE#8, 0xF0#8, 0x02#8] [(0x0310#16, 0x00#8)]
    (fun s => { s with y := 0x20#8, n := true })
    (fun s => { s with n := false, z := true, pc := 0x0603#16 })
    0x26#8 5 [.read 0x0310#16 0x00#8] = true := by
  decide

/-- `LDY #$7F`. -/
theorem test_LS_03 : runs [0xA0#8, 0x7F#8] []
    (fun s => s) (fun s => { s with y := 0x7F#8, pc := 0x0602#16 })
    0x24#8 2 [] = true := by
  decide

/-- `LDY $10,X`. -/
theorem test_LS_04 : runs [0xB4#8, 0x10#8] [(0x0012#16, 0x80#8)]
    (fun s => { s with x := 0x02#8 })
    (fun s => { s with y := 0x80#8, n := true, pc := 0x0602#16 })
    0xA4#8 4 [.read 0x0012#16 0x80#8] = true := by
  decide

/-- `LDY $02F0,X`. -/
theorem test_LS_05 : runs [0xBC#8, 0xF0#8, 0x02#8] [(0x0310#16, 0x01#8)]
    (fun s => { s with x := 0x20#8 })
    (fun s => { s with y := 0x01#8, pc := 0x0603#16 })
    0x24#8 5 [.read 0x0310#16 0x01#8] = true := by
  decide

/-- `STA $10,X`. -/
theorem test_LS_08 : runs [0x95#8, 0x10#8] []
    (fun s => { s with a := 0x00#8, x := 0xF8#8, n := true })
    (fun s => { s with pc := 0x0602#16 })
    0xA4#8 4 [.write 0x0008#16 0x00#8] = true := by
  decide

/-- `STA $02F0,X`. -/
theorem test_AM_18 : runs [0x9D#8, 0xF0#8, 0x02#8] []
    (fun s => { s with a := 0x77#8, x := 0x20#8 })
    (fun s => { s with pc := 0x0603#16 })
    0x24#8 5 [.write 0x0310#16 0x77#8] = true := by
  decide

/-- `STA $0200,Y`. -/
theorem test_LS_14 : runs [0x99#8, 0x00#8, 0x02#8] []
    (fun s => { s with a := 0x3C#8, y := 0x05#8 })
    (fun s => { s with pc := 0x0603#16 })
    0x24#8 5 [.write 0x0205#16 0x3C#8] = true := by
  decide

/-- `STA ($20,X)`. -/
theorem test_LS_13 : runs [0x81#8, 0x20#8] [(0x0024#16, 0x74#8), (0x0025#16, 0x20#8)]
    (fun s => { s with a := 0x3C#8, x := 0x04#8 })
    (fun s => { s with pc := 0x0602#16 })
    0x24#8 6 [.read 0x0024#16 0x74#8, .read 0x0025#16 0x20#8, .write 0x2074#16 0x3C#8] = true := by
  decide

/-- `STA ($10),Y`. -/
theorem test_AM_19 : runs [0x91#8, 0x10#8] [(0x0010#16, 0xF8#8), (0x0011#16, 0x02#8)]
    (fun s => { s with a := 0x77#8, y := 0x10#8 })
    (fun s => { s with pc := 0x0602#16 })
    0x24#8 6 [.read 0x0010#16 0xF8#8, .read 0x0011#16 0x02#8, .write 0x0308#16 0x77#8] = true := by
  decide

/-- `STX $10,Y`. -/
theorem test_LS_09 : runs [0x96#8, 0x10#8] []
    (fun s => { s with x := 0x5A#8, y := 0x01#8 })
    (fun s => { s with pc := 0x0602#16 })
    0x24#8 4 [.write 0x0011#16 0x5A#8] = true := by
  decide

/-- `STX $1234`. -/
theorem test_LS_11 : runs [0x8E#8, 0x34#8, 0x12#8] []
    (fun s => { s with x := 0x00#8, n := true })
    (fun s => { s with pc := 0x0603#16 })
    0xA4#8 4 [.write 0x1234#16 0x00#8] = true := by
  decide

/-- `STY $10,X`. -/
theorem test_LS_10 : runs [0x94#8, 0x10#8] []
    (fun s => { s with y := 0xA5#8, x := 0x01#8 })
    (fun s => { s with pc := 0x0602#16 })
    0x24#8 4 [.write 0x0011#16 0xA5#8] = true := by
  decide

/-- `STY $1234`. -/
theorem test_LS_12 : runs [0x8C#8, 0x34#8, 0x12#8] []
    (fun s => { s with y := 0xFF#8 })
    (fun s => { s with pc := 0x0603#16 })
    0x24#8 4 [.write 0x1234#16 0xFF#8] = true := by
  decide

/-- `TAX`. -/
theorem test_LS_15 : runs [0xAA#8] []
    (fun s => { s with a := 0x80#8 })
    (fun s => { s with x := 0x80#8, n := true, pc := 0x0601#16 })
    0xA4#8 2 [] = true := by
  decide

/-- `TAY`. -/
theorem test_LS_16 : runs [0xA8#8] []
    (fun s => { s with a := 0x00#8, y := 0x55#8 })
    (fun s => { s with y := 0x00#8, z := true, pc := 0x0601#16 })
    0x26#8 2 [] = true := by
  decide

/-- `TXA`. -/
theorem test_LS_17 : runs [0x8A#8] []
    (fun s => { s with x := 0x7F#8 })
    (fun s => { s with a := 0x7F#8, pc := 0x0601#16 })
    0x24#8 2 [] = true := by
  decide

/-- `TYA`. -/
theorem test_LS_18 : runs [0x98#8] []
    (fun s => { s with y := 0xFF#8 })
    (fun s => { s with a := 0xFF#8, n := true, pc := 0x0601#16 })
    0xA4#8 2 [] = true := by
  decide

/-- `TSX`. -/
theorem test_LS_19 : runs [0xBA#8] []
    (fun s => s) (fun s => { s with x := 0xFD#8, n := true, pc := 0x0601#16 })
    0xA4#8 2 [] = true := by
  decide

/-- `TXS`. -/
theorem test_LS_21 : runs [0x9A#8] []
    (fun s => { s with x := 0x80#8 })
    (fun s => { s with sp := 0x80#8, pc := 0x0601#16 })
    0x24#8 2 [] = true := by
  decide


/-! ### ADC and SBC -/

/-- `ADC #$80`. -/
theorem test_AR_02 : runs [0x69#8, 0x80#8] []
    (fun s => { s with a := 0x80#8 })
    (fun s => { s with a := 0x00#8, v := true, z := true, c := true, pc := 0x0602#16 })
    0x67#8 2 [] = true := by
  decide

/-- `ADC #$46`. -/
theorem test_DA_02 : runs [0x69#8, 0x46#8] []
    (fun s => { s with a := 0x58#8, d := true, c := true })
    (fun s => { s with a := 0x05#8, v := true, pc := 0x0602#16 })
    0x6D#8 2 [] = true := by
  decide

/-- `ADC $10`. -/
theorem test_AR_09 : runs [0x65#8, 0x10#8] [(0x0010#16, 0x02#8)]
    (fun s => { s with a := 0x01#8, c := true })
    (fun s => { s with a := 0x04#8, c := false, pc := 0x0602#16 })
    0x24#8 3 [.read 0x0010#16 0x02#8] = true := by
  decide

/-- `ADC $0202,X`. -/
theorem test_AR_11 : runs [0x7D#8, 0x02#8, 0x02#8] [(0x0300#16, 0x20#8)]
    (fun s => { s with a := 0x10#8, x := 0xFE#8 })
    (fun s => { s with a := 0x30#8, pc := 0x0603#16 })
    0x24#8 5 [.read 0x0300#16 0x20#8] = true := by
  decide

/-- `ADC ($10),Y`. -/
theorem test_AR_14 : runs [0x71#8, 0x10#8] [(0x0010#16, 0xF8#8), (0x0011#16, 0x02#8), (0x0308#16, 0x01#8)]
    (fun s => { s with a := 0x01#8, y := 0x10#8 })
    (fun s => { s with a := 0x02#8, pc := 0x0602#16 })
    0x24#8 6 [.read 0x0010#16 0xF8#8, .read 0x0011#16 0x02#8, .read 0x0308#16 0x01#8] = true := by
  decide

/-- `SBC #$01`. -/
theorem test_AR_16 : runs [0xE9#8, 0x01#8] []
    (fun s => { s with a := 0x80#8, c := true })
    (fun s => { s with a := 0x7F#8, v := true, pc := 0x0602#16 })
    0x65#8 2 [] = true := by
  decide

/-- `SBC #$21`. -/
theorem test_DS_14 : runs [0xE9#8, 0x21#8] []
    (fun s => { s with a := 0x12#8, d := true, c := true })
    (fun s => { s with a := 0x91#8, n := true, c := false, pc := 0x0602#16 })
    0xAC#8 2 [] = true := by
  decide

/-- `SBC $10`. -/
theorem test_AR_23 : runs [0xE5#8, 0x10#8] [(0x0010#16, 0x03#8)]
    (fun s => { s with a := 0x05#8, c := true })
    (fun s => { s with a := 0x02#8, pc := 0x0602#16 })
    0x25#8 3 [.read 0x0010#16 0x03#8] = true := by
  decide

/-- `SBC $10,X`. -/
theorem test_AR_24 : runs [0xF5#8, 0x10#8] [(0x0011#16, 0x06#8)]
    (fun s => { s with a := 0x05#8, x := 0x01#8, c := true })
    (fun s => { s with a := 0xFF#8, n := true, c := false, pc := 0x0602#16 })
    0xA4#8 4 [.read 0x0011#16 0x06#8] = true := by
  decide

/-- `SBC $1234`. -/
theorem test_AR_25 : runs [0xED#8, 0x34#8, 0x12#8] [(0x1234#16, 0x70#8)]
    (fun s => { s with a := 0xD0#8, c := true })
    (fun s => { s with a := 0x60#8, v := true, pc := 0x0603#16 })
    0x65#8 4 [.read 0x1234#16 0x70#8] = true := by
  decide


/-! ### Increments and decrements -/

/-- `INC $10`. -/
theorem test_ID_01 : runs [0xE6#8, 0x10#8] [(0x0010#16, 0xFF#8)]
    (fun s => s) (fun s => { s with z := true, pc := 0x0602#16 })
    0x26#8 5 [.read 0x0010#16 0xFF#8, .write 0x0010#16 0x00#8] = true := by
  decide

/-- `INC $10,X`. -/
theorem test_ID_03 : runs [0xF6#8, 0x10#8] [(0x0001#16, 0x00#8)]
    (fun s => { s with x := 0xF1#8 })
    (fun s => { s with pc := 0x0602#16 })
    0x24#8 6 [.read 0x0001#16 0x00#8, .write 0x0001#16 0x01#8] = true := by
  decide

/-- `INC $02F0,X`. -/
theorem test_AM_20 : runs [0xFE#8, 0xF0#8, 0x02#8] [(0x0310#16, 0x41#8)]
    (fun s => { s with x := 0x20#8 })
    (fun s => { s with pc := 0x0603#16 })
    0x24#8 7 [.read 0x0310#16 0x41#8, .write 0x0310#16 0x42#8] = true := by
  decide

/-- `DEC $10`. -/
theorem test_ID_05 : runs [0xC6#8, 0x10#8] [(0x0010#16, 0x00#8)]
    (fun s => s) (fun s => { s with n := true, pc := 0x0602#16 })
    0xA4#8 5 [.read 0x0010#16 0x00#8, .write 0x0010#16 0xFF#8] = true := by
  decide

/-- `DEC $02F0,X`. -/
theorem test_ID_08 : runs [0xDE#8, 0xF0#8, 0x02#8] [(0x0310#16, 0x10#8)]
    (fun s => { s with x := 0x20#8 })
    (fun s => { s with pc := 0x0603#16 })
    0x24#8 7 [.read 0x0310#16 0x10#8, .write 0x0310#16 0x0F#8] = true := by
  decide

/-- `INX`. -/
theorem test_ID_09 : runs [0xE8#8] []
    (fun s => { s with x := 0x7F#8, c := true, v := true })
    (fun s => { s with x := 0x80#8, n := true, pc := 0x0601#16 })
    0xE5#8 2 [] = true := by
  decide

/-- `INX`. -/
theorem test_S5_01 : runs [0xE8#8] []
    (fun s => { s with x := 0xFF#8 })
    (fun s => { s with x := 0x00#8, z := true, pc := 0x0601#16 })
    0x26#8 2 [] = true := by
  decide

/-- `INY`. -/
theorem test_ID_10 : runs [0xC8#8] []
    (fun s => { s with y := 0xFF#8, c := true, v := true })
    (fun s => { s with y := 0x00#8, z := true, pc := 0x0601#16 })
    0x67#8 2 [] = true := by
  decide

/-- `DEX`. -/
theorem test_S6_01 : runs [0xCA#8] []
    (fun s => { s with x := 0x00#8 })
    (fun s => { s with x := 0xFF#8, n := true, pc := 0x0601#16 })
    0xA4#8 2 [] = true := by
  decide

/-- `DEY`. -/
theorem test_ID_12 : runs [0x88#8] []
    (fun s => { s with y := 0x00#8, c := true, v := true })
    (fun s => { s with y := 0xFF#8, n := true, pc := 0x0601#16 })
    0xE5#8 2 [] = true := by
  decide


/-! ### Shifts and rotates -/

/-- `ASL A`. -/
theorem test_SH_03 : runs [0x0A#8] []
    (fun s => { s with a := 0xC0#8, c := true })
    (fun s => { s with a := 0x80#8, n := true, pc := 0x0601#16 })
    0xA5#8 2 [] = true := by
  decide

/-- `ASL $02F0,X`. -/
theorem test_SH_13 : runs [0x1E#8, 0xF0#8, 0x02#8] [(0x0310#16, 0x81#8)]
    (fun s => { s with x := 0x20#8 })
    (fun s => { s with c := true, pc := 0x0603#16 })
    0x25#8 7 [.read 0x0310#16 0x81#8, .write 0x0310#16 0x02#8] = true := by
  decide

/-- `LSR A`. -/
theorem test_SH_05 : runs [0x4A#8] []
    (fun s => { s with a := 0x80#8, c := true, n := true })
    (fun s => { s with a := 0x40#8, n := false, c := false, pc := 0x0601#16 })
    0x24#8 2 [] = true := by
  decide

/-- `LSR $10`. -/
theorem test_SH_14 : runs [0x46#8, 0x10#8] [(0x0010#16, 0x03#8)]
    (fun s => s) (fun s => { s with c := true, pc := 0x0602#16 })
    0x25#8 5 [.read 0x0010#16 0x03#8, .write 0x0010#16 0x01#8] = true := by
  decide

/-- `ROL A`. -/
theorem test_SH_07 : runs [0x2A#8] []
    (fun s => { s with a := 0x40#8, c := true })
    (fun s => { s with a := 0x81#8, n := true, c := false, pc := 0x0601#16 })
    0xA4#8 2 [] = true := by
  decide

/-- `ROL $1234`. -/
theorem test_SH_20 : runs [0x2E#8, 0x34#8, 0x12#8] [(0x1234#16, 0xFF#8)]
    (fun s => { s with c := true })
    (fun s => { s with n := true, pc := 0x0603#16 })
    0xA5#8 6 [.read 0x1234#16 0xFF#8, .write 0x1234#16 0xFF#8] = true := by
  decide

/-- `ROR A`. -/
theorem test_SH_09 : runs [0x6A#8] []
    (fun s => { s with a := 0x00#8, c := true })
    (fun s => { s with a := 0x80#8, n := true, c := false, pc := 0x0601#16 })
    0xA4#8 2 [] = true := by
  decide

/-- `ROR $10`. -/
theorem test_SH_22 : runs [0x66#8, 0x10#8] [(0x0010#16, 0x01#8)]
    (fun s => { s with c := true })
    (fun s => { s with n := true, pc := 0x0602#16 })
    0xA5#8 5 [.read 0x0010#16 0x01#8, .write 0x0010#16 0x80#8] = true := by
  decide


/-! ### Logic and compare -/

/-- `AND #$F0`. -/
theorem test_LC_02 : runs [0x29#8, 0xF0#8] []
    (fun s => { s with a := 0xFF#8 })
    (fun s => { s with a := 0xF0#8, n := true, pc := 0x0602#16 })
    0xA4#8 2 [] = true := by
  decide

/-- `AND $02F0,X`. -/
theorem test_LC_04 : runs [0x3D#8, 0xF0#8, 0x02#8] [(0x0310#16, 0x81#8)]
    (fun s => { s with a := 0xFF#8, x := 0x20#8 })
    (fun s => { s with a := 0x81#8, n := true, pc := 0x0603#16 })
    0xA4#8 5 [.read 0x0310#16 0x81#8] = true := by
  decide

/-- `ORA #$00`. -/
theorem test_LC_06 : runs [0x09#8, 0x00#8] []
    (fun s => { s with a := 0x00#8, n := true })
    (fun s => { s with n := false, z := true, pc := 0x0602#16 })
    0x26#8 2 [] = true := by
  decide

/-- `ORA ($10),Y`. -/
theorem test_LC_08 : runs [0x11#8, 0x10#8] [(0x0010#16, 0xF8#8), (0x0011#16, 0x02#8), (0x02FF#16, 0x02#8)]
    (fun s => { s with a := 0x01#8, y := 0x07#8 })
    (fun s => { s with a := 0x03#8, pc := 0x0602#16 })
    0x24#8 5 [.read 0x0010#16 0xF8#8, .read 0x0011#16 0x02#8, .read 0x02FF#16 0x02#8] = true := by
  decide

/-- `EOR #$FF`. -/
theorem test_LC_10 : runs [0x49#8, 0xFF#8] []
    (fun s => { s with a := 0x0F#8 })
    (fun s => { s with a := 0xF0#8, n := true, pc := 0x0602#16 })
    0xA4#8 2 [] = true := by
  decide

/-- `EOR ($20,X)`. -/
theorem test_LC_11 : runs [0x41#8, 0x20#8] [(0x0024#16, 0x74#8), (0x0025#16, 0x20#8), (0x2074#16, 0x55#8)]
    (fun s => { s with a := 0xAA#8, x := 0x04#8 })
    (fun s => { s with a := 0xFF#8, n := true, pc := 0x0602#16 })
    0xA4#8 6 [.read 0x0024#16 0x74#8, .read 0x0025#16 0x20#8, .read 0x2074#16 0x55#8] = true := by
  decide

/-- `CMP #$20`. -/
theorem test_LC_14 : runs [0xC9#8, 0x20#8] []
    (fun s => { s with a := 0x10#8 })
    (fun s => { s with n := true, pc := 0x0602#16 })
    0xA4#8 2 [] = true := by
  decide

/-- `CMP #$09`. -/
theorem test_LC_19 : runs [0xC9#8, 0x09#8] []
    (fun s => { s with a := 0x10#8, d := true, v := true, c := false })
    (fun s => { s with c := true, pc := 0x0602#16 })
    0x6D#8 2 [] = true := by
  decide

/-- `CMP ($10),Y`. -/
theorem test_LC_22 : runs [0xD1#8, 0x10#8] [(0x0010#16, 0xF8#8), (0x0011#16, 0x02#8), (0x0308#16, 0x41#8)]
    (fun s => { s with a := 0x40#8, y := 0x10#8 })
    (fun s => { s with n := true, pc := 0x0602#16 })
    0xA4#8 6 [.read 0x0010#16 0xF8#8, .read 0x0011#16 0x02#8, .read 0x0308#16 0x41#8] = true := by
  decide

/-- `CPX $10`. -/
theorem test_LC_25 : runs [0xE4#8, 0x10#8] [(0x0010#16, 0x01#8)]
    (fun s => { s with x := 0xFF#8 })
    (fun s => { s with n := true, c := true, pc := 0x0602#16 })
    0xA5#8 3 [.read 0x0010#16 0x01#8] = true := by
  decide

/-- `CPY #$80`. -/
theorem test_LC_27 : runs [0xC0#8, 0x80#8] []
    (fun s => { s with y := 0x7F#8 })
    (fun s => { s with n := true, pc := 0x0602#16 })
    0xA4#8 2 [] = true := by
  decide


/-! ### Branches -/

/-- `BCC $0612`. -/
theorem test_BR_01 : runs [0x90#8, 0x10#8] []
    (fun s => { s with c := false })
    (fun s => { s with pc := 0x0612#16 })
    0x24#8 3 [] = true := by
  decide

/-- `BCC $0612`. -/
theorem test_BR_02 : runs [0x90#8, 0x10#8] []
    (fun s => { s with c := true })
    (fun s => { s with pc := 0x0602#16 })
    0x25#8 2 [] = true := by
  decide

/-- `BCS $0612`. -/
theorem test_BR_03 : runs [0xB0#8, 0x10#8] []
    (fun s => { s with c := false })
    (fun s => { s with pc := 0x0602#16 })
    0x24#8 2 [] = true := by
  decide

/-- `BCS $0612`. -/
theorem test_BR_04 : runs [0xB0#8, 0x10#8] []
    (fun s => { s with c := true })
    (fun s => { s with pc := 0x0612#16 })
    0x25#8 3 [] = true := by
  decide

/-- `BEQ $0612`. -/
theorem test_BR_05 : runs [0xF0#8, 0x10#8] []
    (fun s => { s with z := false })
    (fun s => { s with pc := 0x0602#16 })
    0x24#8 2 [] = true := by
  decide

/-- `BEQ $0702`. -/
theorem test_S4_03 : runs [0xF0#8, 0x10#8] []
    (fun s => { s with pc := 0x06F0#16, z := true })
    (fun s => { s with pc := 0x0702#16 })
    0x26#8 4 [] = true := by
  decide

/-- `BNE $0002`. -/
theorem test_BR_22 : runs [0xD0#8, 0x02#8] []
    (fun s => { s with pc := 0xFFFE#16 })
    (fun s => { s with pc := 0x0002#16 })
    0x24#8 3 [] = true := by
  decide

/-- `BNE $FFFE`. -/
theorem test_BR_23 : runs [0xD0#8, 0xFC#8] []
    (fun s => { s with pc := 0x0000#16 })
    (fun s => { s with pc := 0xFFFE#16 })
    0x24#8 4 [] = true := by
  decide

/-- `BMI $0612`. -/
theorem test_BR_09 : runs [0x30#8, 0x10#8] []
    (fun s => { s with n := false })
    (fun s => { s with pc := 0x0602#16 })
    0x24#8 2 [] = true := by
  decide

/-- `BMI $0612`. -/
theorem test_BR_10 : runs [0x30#8, 0x10#8] []
    (fun s => { s with n := true })
    (fun s => { s with pc := 0x0612#16 })
    0xA4#8 3 [] = true := by
  decide

/-- `BPL $0612`. -/
theorem test_BR_12 : runs [0x10#8, 0x10#8] []
    (fun s => { s with n := true })
    (fun s => { s with pc := 0x0602#16 })
    0xA4#8 2 [] = true := by
  decide

/-- `BPL $0582`. -/
theorem test_S4_04 : runs [0x10#8, 0x80#8] []
    (fun s => { s with n := false })
    (fun s => { s with pc := 0x0582#16 })
    0x24#8 4 [] = true := by
  decide

/-- `BVC $0612`. -/
theorem test_BR_13 : runs [0x50#8, 0x10#8] []
    (fun s => { s with v := false })
    (fun s => { s with pc := 0x0612#16 })
    0x24#8 3 [] = true := by
  decide

/-- `BVC $0612`. -/
theorem test_BR_14 : runs [0x50#8, 0x10#8] []
    (fun s => { s with v := true })
    (fun s => { s with pc := 0x0602#16 })
    0x64#8 2 [] = true := by
  decide

/-- `BVS $0612`. -/
theorem test_BR_15 : runs [0x70#8, 0x10#8] []
    (fun s => { s with v := false })
    (fun s => { s with pc := 0x0602#16 })
    0x24#8 2 [] = true := by
  decide

/-- `BVS $0612`. -/
theorem test_BR_16 : runs [0x70#8, 0x10#8] []
    (fun s => { s with v := true })
    (fun s => { s with pc := 0x0612#16 })
    0x64#8 3 [] = true := by
  decide


/-! ### Jumps and calls -/

/-- `JMP $1234`. -/
theorem test_JP_01 : runs [0x4C#8, 0x34#8, 0x12#8] []
    (fun s => s) (fun s => { s with pc := 0x1234#16 })
    0x24#8 3 [] = true := by
  decide

/-- `JMP ($02FF)`. -/
theorem test_S7_01 : runs [0x6C#8, 0xFF#8, 0x02#8] [(0x0200#16, 0x06#8), (0x02FF#16, 0x10#8), (0x0300#16, 0x07#8)]
    (fun s => s) (fun s => { s with pc := 0x0610#16 })
    0x24#8 5 [.read 0x02FF#16 0x10#8, .read 0x0200#16 0x06#8] = true := by
  decide

/-- `JSR $1234`. -/
theorem test_JP_04 : runs [0x20#8, 0x34#8, 0x12#8] []
    (fun s => { s with sp := 0x00#8 })
    (fun s => { s with sp := 0xFE#8, pc := 0x1234#16 })
    0x24#8 6 [.write 0x0100#16 0x06#8, .write 0x01FF#16 0x02#8] = true := by
  decide

/-- `JSR $FFF0`. -/
theorem test_JP_08 : runs [0x20#8, 0xF0#8, 0xFF#8] []
    (fun s => { s with pc := 0x12FE#16 })
    (fun s => { s with sp := 0xFB#8, pc := 0xFFF0#16 })
    0x24#8 6 [.write 0x01FD#16 0x13#8, .write 0x01FC#16 0x00#8] = true := by
  decide

/-- `RTS`. -/
theorem test_JP_06 : runs [0x60#8] [(0x0100#16, 0x33#8), (0x0101#16, 0x12#8)]
    (fun s => { s with sp := 0xFF#8 })
    (fun s => { s with sp := 0x01#8, pc := 0x1234#16 })
    0x24#8 6 [.read 0x0100#16 0x33#8, .read 0x0101#16 0x12#8] = true := by
  decide

/-- `RTS`. -/
theorem test_JP_07 : runs [0x60#8] [(0x01FC#16, 0xFF#8), (0x01FD#16, 0xFF#8)]
    (fun s => { s with sp := 0xFB#8 })
    (fun s => { s with sp := 0xFD#8, pc := 0x0000#16 })
    0x24#8 6 [.read 0x01FC#16 0xFF#8, .read 0x01FD#16 0xFF#8] = true := by
  decide


/-! ### Stack and flags -/

/-- `PHA`. -/
theorem test_ST_02 : runs [0x48#8] []
    (fun s => { s with a := 0x80#8, sp := 0x00#8 })
    (fun s => { s with sp := 0xFF#8, pc := 0x0601#16 })
    0x24#8 3 [.write 0x0100#16 0x80#8] = true := by
  decide

/-- `PLA`. -/
theorem test_ST_05 : runs [0x68#8] [(0x0100#16, 0x7F#8)]
    (fun s => { s with sp := 0xFF#8 })
    (fun s => { s with a := 0x7F#8, sp := 0x00#8, pc := 0x0601#16 })
    0x24#8 4 [.read 0x0100#16 0x7F#8] = true := by
  decide

/-- `PHP`. -/
theorem test_ST_08 : runs [0x08#8] []
    (fun s => { s with n := true, c := true })
    (fun s => { s with sp := 0xFC#8, pc := 0x0601#16 })
    0xA5#8 3 [.write 0x01FD#16 0xA5#8] = true := by
  decide

/-- `PHP`. -/
theorem test_ST_09 : runs [0x08#8] []
    (fun s => { s with sp := 0x00#8, b := true, d := true, v := true, z := true, i := false })
    (fun s => { s with sp := 0xFF#8, pc := 0x0601#16 })
    0x7A#8 3 [.write 0x0100#16 0x7A#8] = true := by
  decide

/-- `PLP`. -/
theorem test_ST_10 : runs [0x28#8] [(0x01FD#16, 0xC3#8)]
    (fun s => { s with sp := 0xFC#8 })
    (fun s => { s with sp := 0xFD#8, n := true, v := true, i := false, z := true, c := true, pc := 0x0601#16 })
    0xE3#8 4 [.read 0x01FD#16 0xC3#8] = true := by
  decide

/-- `PLP`. -/
theorem test_ST_12 : runs [0x28#8] [(0x01FD#16, 0x00#8)]
    (fun s => { s with sp := 0xFC#8 })
    (fun s => { s with sp := 0xFD#8, i := false, pc := 0x0601#16 })
    0x20#8 4 [.read 0x01FD#16 0x00#8] = true := by
  decide

/-- `CLC`. -/
theorem test_ST_14 : runs [0x18#8] []
    (fun s => { s with c := true })
    (fun s => { s with c := false, pc := 0x0601#16 })
    0x24#8 2 [] = true := by
  decide

/-- `SEC`. -/
theorem test_ST_16 : runs [0x38#8] []
    (fun s => s) (fun s => { s with c := true, pc := 0x0601#16 })
    0x25#8 2 [] = true := by
  decide

/-- `CLI`. -/
theorem test_ST_17 : runs [0x58#8] []
    (fun s => s) (fun s => { s with i := false, pc := 0x0601#16 })
    0x20#8 2 [] = true := by
  decide

/-- `SEI`. -/
theorem test_ST_18 : runs [0x78#8] []
    (fun s => { s with i := false })
    (fun s => { s with i := true, pc := 0x0601#16 })
    0x24#8 2 [] = true := by
  decide

/-- `CLD`. -/
theorem test_ST_19 : runs [0xD8#8] []
    (fun s => { s with d := true })
    (fun s => { s with d := false, pc := 0x0601#16 })
    0x24#8 2 [] = true := by
  decide

/-- `SED`. -/
theorem test_ST_20 : runs [0xF8#8] []
    (fun s => s) (fun s => { s with d := true, pc := 0x0601#16 })
    0x2C#8 2 [] = true := by
  decide

/-- `CLV`. -/
theorem test_ST_22 : runs [0xB8#8] []
    (fun s => { s with v := true, n := true, c := true, z := true, d := true, b := true })
    (fun s => { s with v := false, pc := 0x0601#16 })
    0xBF#8 2 [] = true := by
  decide


/-! ### BIT, NOP, BRK, RTI -/

/-- `BIT $10`. -/
theorem test_BN_01 : runs [0x24#8, 0x10#8] [(0x0010#16, 0xC0#8)]
    (fun s => { s with a := 0x0F#8 })
    (fun s => { s with n := true, v := true, z := true, pc := 0x0602#16 })
    0xE6#8 3 [.read 0x0010#16 0xC0#8] = true := by
  decide

/-- `BIT $1234`. -/
theorem test_BN_03 : runs [0x2C#8, 0x34#8, 0x12#8] [(0x1234#16, 0x81#8)]
    (fun s => { s with a := 0x01#8 })
    (fun s => { s with n := true, pc := 0x0603#16 })
    0xA4#8 4 [.read 0x1234#16 0x81#8] = true := by
  decide

/-- `NOP`. -/
theorem test_BN_04 : runs [0xEA#8] []
    (fun s => { s with a := 0x12#8, x := 0x34#8, y := 0x56#8, n := true, c := true })
    (fun s => { s with pc := 0x0601#16 })
    0xA5#8 2 [] = true := by
  decide

/-- `BRK`. -/
theorem test_S3_02 : runs [0x00#8] [(0xFFFE#16, 0x00#8), (0xFFFF#16, 0x07#8), (0x0601#16, 0xEA#8)]
    (fun s => { s with sp := 0x01#8, i := false, c := true, n := true })
    (fun s => { s with sp := 0xFE#8, b := true, i := true, pc := 0x0700#16 })
    0xB5#8 7 [.write 0x0101#16 0x06#8, .write 0x0100#16 0x02#8, .write 0x01FF#16 0xB1#8, .read 0xFFFE#16 0x00#8,
      .read 0xFFFF#16 0x07#8] = true := by
  decide

/-- `BRK`. -/
theorem test_BN_05 : runs [0x00#8] [(0xFFFE#16, 0x00#8)]
    (fun s => { s with pc := 0xFFFF#16 })
    (fun s => { s with sp := 0xFA#8, b := true, pc := 0x0000#16 })
    0x34#8 7 [.write 0x01FD#16 0x00#8, .write 0x01FC#16 0x01#8, .write 0x01FB#16 0x34#8, .read 0xFFFE#16 0x00#8,
      .read 0xFFFF#16 0x00#8] = true := by
  decide

/-- `RTI`. -/
theorem test_BN_07 : runs [0x40#8] [(0x01FB#16, 0x3D#8), (0x01FC#16, 0x04#8), (0x01FD#16, 0x06#8)]
    (fun s => { s with pc := 0x0708#16, sp := 0xFA#8 })
    (fun s => { s with sp := 0xFD#8, b := true, d := true, c := true, pc := 0x0604#16 })
    0x3D#8 6 [.read 0x01FB#16 0x3D#8, .read 0x01FC#16 0x04#8, .read 0x01FD#16 0x06#8] = true := by
  decide

/-- `RTI`. -/
theorem test_BN_08 : runs [0x40#8] [(0x0100#16, 0xC3#8), (0x0101#16, 0xFF#8), (0x0102#16, 0xFF#8)]
    (fun s => { s with pc := 0x0708#16, sp := 0xFF#8, b := true })
    (fun s =>
      { s with sp := 0x02#8, n := true, v := true, b := false, i := false, z := true, c := true, pc := 0xFFFF#16 })
    0xE3#8 6 [.read 0x0100#16 0xC3#8, .read 0x0101#16 0xFF#8, .read 0x0102#16 0xFF#8] = true := by
  decide

/-! ### The fault -/

/-- FT-02: `.byte $FF` at 0x1234. -/
theorem test_FT_02 :
    let s := load [0xFF#8] [] { s0 with pc := 0x1234#16, a := 0x11#8, x := 0x22#8, y := 0x33#8 }
    step s = .fault (.illegalOpcode 0xFF#8 0x1234#16
      { s with pc := 0x1235#16, run := .faulted 0xFF#8 0x1234#16, trace := [.read 0x1234#16 0xFF#8] }) :=
  eq_of_sameOutcome (by decide)

/-- FT-05: `.byte $1A` at 0xFFFF. -/
theorem test_FT_05 :
    let s := load [0x1A#8] [] { s0 with pc := 0xFFFF#16 }
    step s = .fault (.illegalOpcode 0x1A#8 0xFFFF#16
      { s with pc := 0x0000#16, run := .faulted 0x1A#8 0xFFFF#16, trace := [.read 0xFFFF#16 0x1A#8] }) :=
  eq_of_sameOutcome (by decide)

/-! ### The decimal adders (95_test_vectors.md section 3) -/

/-- DA-01, DA-07, DA-09; and with nibbles above 9, DN-01, DN-02, DN-05, DN-06. -/
theorem test_addDecimal :
    addDecimal 0x99#8 0x01#8 false = (0x00#8, true) ∧ addDecimal 0x99#8 0x99#8 true = (0x99#8, true) ∧
    addDecimal 0x49#8 0x50#8 true = (0x00#8, true) ∧ addDecimal 0x0F#8 0x01#8 false = (0x16#8, false) ∧
    addDecimal 0xFF#8 0xFF#8 true = (0x55#8, true) ∧ addDecimal 0x1F#8 0x1F#8 false = (0x34#8, false) ∧
    addDecimal 0xA0#8 0x00#8 false = (0x00#8, true) := by
  decide

/-- DS-12, DS-13, DS-14, DS-17; and with nibbles above 9, DN-09, DN-10, DN-11, DN-13. -/
theorem test_subDecimal :
    subDecimal 0x40#8 0x13#8 true = 0x27#8 ∧ subDecimal 0x32#8 0x02#8 false = 0x29#8 ∧
    subDecimal 0x12#8 0x21#8 true = 0x91#8 ∧ subDecimal 0x00#8 0x00#8 false = 0x99#8 ∧
    subDecimal 0x00#8 0x0F#8 true = 0x9B#8 ∧ subDecimal 0xFF#8 0x00#8 true = 0xFF#8 ∧
    subDecimal 0x1A#8 0x0B#8 true = 0x09#8 ∧ subDecimal 0x10#8 0x0A#8 false = 0x0F#8 := by
  decide

/-- The branch targets at the ends of the displacement's range: BR-20, BR-19, BR-22, BR-23. -/
theorem test_relativeTarget :
    relativeTarget 0x7F#8 { s0 with pc := 0x0602#16 } = ⟨0x0681#16, false⟩ ∧
    relativeTarget 0x80#8 { s0 with pc := 0x0602#16 } = ⟨0x0582#16, true⟩ ∧
    relativeTarget 0x02#8 { s0 with pc := 0x0000#16 } = ⟨0x0002#16, false⟩ ∧
    relativeTarget 0xFC#8 { s0 with pc := 0x0002#16 } = ⟨0xFFFE#16, true⟩ := by
  decide

/-! ### Memory, the interface, reset -/

/-- By hand: cells stay in order, a write of 0x00 takes a cell out, and the form says so. -/
theorem test_memory_form :
    Memory.write (Memory.write [] 0x0200#16 0x07#8) 0x0010#16 0x01#8 = [(0x0010, 0x01#8), (0x0200, 0x07#8)] ∧
    Memory.write [(0x0010, 0x01#8), (0x0200, 0x07#8)] 0x0010#16 0x00#8 = [(0x0200, 0x07#8)] ∧
    Memory.wf [(0x0200, 0x07#8), (0x0010, 0x01#8)] = false ∧ Memory.wf [(0x0010, 0x00#8)] = false ∧
    Memory.wf [(0x10000, 0x01#8)] = false ∧ Memory.wf [(0xFFFF, 0x01#8)] = true := by
  decide

/-- `withFetchWord` makes the very next step run the instruction (here LDA #$80, bits 0x80A9). -/
theorem test_withFetchWord : step (State.reset.withFetchWord 16 0x80A9) = .next
    { State.reset with
      mem := [(0x0000, 0xA9#8), (0x0001, 0x80#8)], a := 0x80#8, n := true, pc := 0x0002#16, cyc := 2
      trace := [.read 0x0000#16 0xA9#8, .read 0x0001#16 0x80#8] } :=
  eq_of_sameOutcome (by decide)

/-- S12: the documented values after reset, as the status byte 24. -/
theorem test_reset_status : statusByte State.reset = 0x24#8 ∧ State.reset.sp = 0xFD#8 := by
  decide

/-! ## Witnesses: for each statement with hypotheses, a state and operands that meet all of them -/

/-- A state about to run an instruction that completes (LDA $02F0,X with a page cross), after a step of history. -/
def busy : State :=
  load [0xBD#8, 0xF0#8, 0x02#8] [(0x0310#16, 0x22#8)]
    { s0 with x := 0x20#8, cyc := 9, trace := [.read 0x0310#16 0x22#8], history := [.write 0x0310#16 0x22#8] }

/-- What `busy` steps to. -/
def busyNext : State :=
  { busy with
    a := 0x22#8, pc := 0x0603#16, cyc := 14, history := busy.history ++ busy.trace
    trace := fetchReads 0x0600#16 [0xBD#8, 0xF0#8, 0x02#8] ++ [.read 0x0310#16 0x22#8] }

theorem witness_busy_steps : step busy = .next busyNext := eq_of_sameOutcome (by decide)

theorem witness_DecodedBytesBeginWithTheEncoding : decode [0x6C#8, 0xFF#8, 0x02#8, 0x55#8] = .ok (.jmpInd 0x02FF#16) := by
  decide

/-- Three fetched bytes, from 0xFFFE on: the last lies at 0x0000. -/
theorem witness_StepRunsTheDecodedInstruction :
    let s := load [0xAD#8, 0x34#8, 0x12#8] [] { s0 with pc := 0xFFFE#16 }
    s.run = .running ∧ BytesAt s.mem s.pc (fetchedBytes (.ldaAbs 0x1234#16)) :=
  ⟨rfl, by decide, by decide, by decide, trivial⟩

/-- Each of the three clauses: an undefined byte at PC (the last of R68's list, at the last address), a step that faults, a
faulted machine. -/
theorem witness_UndefinedOpcodeFaultsAndNothingElseDoes :
    (let s := load [0xFF#8] [] { s0 with pc := 0xFFFF#16 }
     s.run = .running ∧ (s.mem.read s.pc).toNat ∈ undefinedOpcodes ∧ ∃ f, step s = .fault f) ∧
    { s0 with run := .faulted 0x02#8 0x0600#16 }.run = .faulted 0x02#8 0x0600#16 :=
  ⟨⟨rfl, by decide, _, rfl⟩, rfl⟩

theorem witness_RunningStepCompletesUnlessTheOpcodeIsUndefined :
    busy.run = .running ∧ (busy.mem.read busy.pc).toNat ∉ undefinedOpcodes := by
  decide

/-- Both sides of the equivalence, for both run statuses that enable no step. -/
theorem witness_StepIsEnabledOnlyInRunning :
    { s0 with run := .halted }.run ≠ .running ∧ { s0 with run := .faulted 0xFF#8 0xFFFF#16 }.run ≠ .running ∧
    step { s0 with run := .halted } = .refused (.notRunning .halted) :=
  ⟨by decide, by decide, eq_of_sameOutcome (by decide)⟩

theorem witness_AddDecimal_SubDecimal_ValidBcd : ValidBcd 0x99#8 ∧ ValidBcd 0x00#8 := by
  simp only [ValidBcd]
  decide

/-- A branch with its condition false, and with it true on both sides of a page cross. -/
theorem witness_BranchesTestTheirFlag :
    (!{ s0 with c := true }.c) = false ∧ (!s0.c) = true ∧ (relativeTarget 0x7F#8 s0).crossed = false ∧
    (relativeTarget 0x80#8 s0).crossed = true := by
  decide

/-- NOP is on no list of writers, and it has a next state. -/
theorem witness_OnlyTheListedInstructions :
    exec .nop s0 = .next { s0 with cyc := 2 } ∧ Instr.nop.form.mnemonic ∉ writersOfC ∧
    Instr.nop.form.mnemonic ∉ writersOfNZ ∧ Instr.nop.form.mnemonic ∉ writersOfI ∧
    Instr.nop.form.mnemonic ∉ writersOfD ∧ Instr.nop.form.mnemonic ∉ writersOfB ∧
    Instr.nop.form.mnemonic ∉ writersOfV ∧ writesA Instr.nop.form = false ∧
    Instr.nop.form.mnemonic ∉ writersOfX ∧ Instr.nop.form.mnemonic ∉ writersOfY ∧
    Instr.nop.form.mnemonic ∉ writersOfSP ∧ Instr.nop.form.mnemonic ∉ writersOfPC ∧
    writesMemory Instr.nop.form = false :=
  ⟨eq_of_sameOutcome (by decide), by decide⟩

/-- The first and the last kind of result: a register, and the byte written to memory. -/
theorem witness_NAndZDescribeTheResultByte :
    (Instr.ldaImm 0x80#8).form.mnemonic ∈ callsSetNZ ∧
    (Instr.ldaImm 0x80#8).form.mnemonic ∉ [Mnemonic.cmp, .cpx, .cpy] ∧
    (Instr.decZp 0x10#8).form.mnemonic ∈ callsSetNZ ∧
    (Instr.decZp 0x10#8).form.mnemonic ∉ [Mnemonic.cmp, .cpx, .cpy] := by
  decide

/-- The two ends of the range: NOP's 2 cycles and BRK's 7; and a form outside the Relative mode without the penalty. -/
theorem witness_EveryStepCostsTwoToSevenCycles :
    step (load [0xEA#8] [] s0) =
      .next { load [0xEA#8] [] s0 with pc := 0x0601#16, cyc := 2, trace := [.read 0x0600#16 0xEA#8] } ∧
    exec .nop s0 = .next { s0 with cyc := 2 } ∧ Instr.nop.form.mode ≠ .relative ∧
    (descriptor .nop).pageCrossPenalty = false ∧ (descriptor .brk).baseCycles = 7 :=
  ⟨eq_of_sameOutcome (by decide), eq_of_sameOutcome (by decide), by decide⟩

theorem witness_StepRecordReplaysTheMemory : step busy = .next busyNext := witness_busy_steps

/-- The memory `busy` began from: its record wrote 0x0310. -/
def busyMem0 : Memory := (load [0xBD#8, 0xF0#8, 0x02#8] [] s0).mem

theorem witness_EveryStepKeepsTheInvariant : Inv busyMem0 busy ∧ step busy = .next busyNext :=
  ⟨⟨by decide, rfl, by decide⟩, witness_busy_steps⟩

theorem witness_ResetMeetsTheInvariant : Memory.wf [(0x0000, 0x01#8), (0xFFFF, 0xFF#8)] = true := by decide

/-- Two states that differ in all three of the things that influence nothing. -/
theorem witness_CyclesAndHistoryInfluenceNothing :
    SameMachine busy { busy with cyc := 0, trace := [], history := [] } ∧
    busy ≠ { busy with cyc := 0, trace := [], history := [] } :=
  ⟨rfl, by decide⟩

/-- A run that halts: the predicate is false after the first step (NOP) and true after the second. -/
def twoNops : State := load [0xEA#8, 0xEA#8] [] s0

/-- The end of that run. -/
def twoNopsHalted : State :=
  { twoNops with
    pc := 0x0602#16, cyc := 4, run := .halted, trace := [.read 0x0601#16 0xEA#8], history := [.read 0x0600#16 0xEA#8] }

theorem witness_RunHaltsAtTheFirstTrueSample : runUntil (haltAtPC 0x0602#16) 3 twoNops = .halted twoNopsHalted := by
  decide

theorem witness_MoreStepsDoNotChangeTheEnd :
    runUntil (haltAtPC 0x0602#16) 3 twoNops ≠ .notEnded twoNops ∧
    ∀ t, runUntil (haltAtPC 0x0602#16) 3 twoNops ≠ .notEnded t := by
  refine ⟨by decide, fun t h => ?_⟩
  rw [witness_RunHaltsAtTheFirstTrueSample] at h
  cases h

theorem witness_BrkTripsHaltOnVectorRead :
    (load [0x00#8] [] s0).run = .running ∧ (load [0x00#8] [] s0).mem.read (load [0x00#8] [] s0).pc = 0x00#8 := by
  decide

end Sys2Proof.Tests
end

section
/-! The state right after reset at the model's values of the two open parameters (00_scope.md R6). -/

namespace Sys2Proof.Proofs

open Machine

/-- Every byte of a memory with nothing listed is the byte an unlisted address reads as. -/
@[simp] theorem read_nil (addr : Word) : Memory.read [] addr = Memory.unlisted := rfl

@[simp] theorem resetWith_mem (entry : Word) (mem0 : Memory) : (State.resetWith entry mem0).mem = mem0 := rfl

/-- The model's entry address (log entry 2) and its memory with nothing listed (log entry 1). -/
theorem reset_eq_resetWith : State.reset = State.resetWith 0x0000#16 [] := rfl

/-- Settles O11: the state by the model's choice of entry address, and each byte by the read of a memory with nothing
listed. -/
theorem stateResetTakesTheModelsEntryAndEmptyMemory : Obligations.StateResetTakesTheModelsEntryAndEmptyMemory := by
  refine ⟨reset_eq_resetWith, fun addr => ?_⟩
  calc State.reset.mem.read addr
      = Memory.read [] addr := by rw [reset_eq_resetWith, resetWith_mem]
    _ = 0x00#8 := read_nil addr

end Sys2Proof.Proofs
end

section
/-! No rule reads the cycle counter or the record of earlier steps (10_state.md R33; log entry 4): every operation commutes
with putting cycles and a history before a state. A step from any state is then a step from the state without a past,
with that past put back. -/

namespace Sys2Proof.Proofs

open Machine Safety Laws

/-- The state with a number of cycles and a history put before its own. -/
def withPast (k : Nat) (h : List Transaction) (s : State) : State :=
  { s with cyc := k + s.cyc, history := h ++ s.history }

/-- The state as the core's rules see it: no cycles counted and nothing recorded. -/
def withoutPast (s : State) : State := { s with cyc := 0, trace := [], history := [] }

theorem sameMachine_iff {s t : State} : SameMachine s t ↔ withoutPast s = withoutPast t := Iff.rfl

theorem sameMachine_withPast (k k' : Nat) (h h' : List Transaction) (s : State) :
    SameMachine (withPast k h s) (withPast k' h' s) := rfl

theorem beginStep_eq_withPast (s : State) :
    beginStep s = withPast s.cyc (s.history ++ s.trace) (beginStep (withoutPast s)) := by
  simp [beginStep, withPast, withoutPast]

/-! ## The meanings -/

/-- An operation on states commutes with putting a past before the state. -/
def IgnoresPast (f : State → State) : Prop := ∀ k h s, f (withPast k h s) = withPast k h (f s)

/-- The one operation that touches the counter adds to it. -/
theorem complete_withPast {k : Nat} {h : List Transaction} {s t : State} {d : Descriptor} {extra : Nat}
    (ht : t = withPast k h s) : complete d extra t = withPast k h (complete d extra s) := by
  simp [ht, complete_eq, withPast, Nat.add_assoc]

theorem resolve_withPast (mode : MemMode) (k : Nat) (h : List Transaction) (s : State) :
    resolve mode (withPast k h s) = ((resolve mode s).1, withPast k h (resolve mode s).2) := by
  cases mode <;> rfl

theorem loadOperand_withPast (op : Operand) (k : Nat) (h : List Transaction) (s : State) :
    loadOperand op (withPast k h s) = ((loadOperand op s).1, withPast k h (loadOperand op s).2) := by
  cases op <;> rfl

theorem ignoresPast_onOperand {rule : Operand → State → State} (hr : ∀ op, IgnoresPast (rule op)) (mode : MemMode) :
    IgnoresPast (onOperand mode rule) := fun k h s => by
  simp only [onOperand, resolve_withPast, hr _ k h]

theorem ignoresPast_onPlace {rule : Place → State → State} (hr : ∀ place, IgnoresPast (rule place)) (mode : MemMode) :
    IgnoresPast (onPlace mode rule) := fun k h s => by
  simp only [onPlace, resolve_withPast, hr _ k h]

theorem ignoresPast_onAddress {rule : Address → State → State} (hr : ∀ p, IgnoresPast (rule p)) (mode : MemMode) :
    IgnoresPast (onAddress mode rule) := fun k h s => by
  simp only [onAddress, resolve_withPast, hr _ k h]

theorem ignoresPast_enterBrk : IgnoresPast enterBrk := fun k h s => by
  rw [enterBrk_eq, enterBrk_eq]
  rfl

theorem ignoresPast_returnFromBrk : IgnoresPast returnFromBrk := fun k h s => by
  rw [returnFromBrk_eq, returnFromBrk_eq]
  rfl

theorem ignoresPast_sta (d : Descriptor) (p : Address) : IgnoresPast (sta d p) := fun _ _ _ => complete_withPast rfl

theorem ignoresPast_stx (d : Descriptor) (p : Address) : IgnoresPast (stx d p) := fun _ _ _ => complete_withPast rfl

theorem ignoresPast_sty (d : Descriptor) (p : Address) : IgnoresPast (sty d p) := fun _ _ _ => complete_withPast rfl

theorem ignoresPast_jmp (d : Descriptor) (p : Address) : IgnoresPast (jmp d p) := fun _ _ _ => complete_withPast rfl

theorem ignoresPast_jsr (d : Descriptor) (p : Address) : IgnoresPast (jsr d p) := fun _ _ _ => complete_withPast rfl

theorem ignoresPast_lda (d : Descriptor) (op : Operand) : IgnoresPast (lda d op) := by
  cases op <;> exact fun _ _ _ => complete_withPast rfl

theorem ignoresPast_ldx (d : Descriptor) (op : Operand) : IgnoresPast (ldx d op) := by
  cases op <;> exact fun _ _ _ => complete_withPast rfl

theorem ignoresPast_ldy (d : Descriptor) (op : Operand) : IgnoresPast (ldy d op) := by
  cases op <;> exact fun _ _ _ => complete_withPast rfl

theorem ignoresPast_adc (d : Descriptor) (op : Operand) : IgnoresPast (adc d op) := by
  cases op <;> exact fun _ _ _ => complete_withPast rfl

theorem ignoresPast_sbc (d : Descriptor) (op : Operand) : IgnoresPast (sbc d op) := by
  cases op <;> exact fun _ _ _ => complete_withPast rfl

theorem ignoresPast_logic (f : Byte → Byte → Byte) (d : Descriptor) (op : Operand) : IgnoresPast (logic f d op) := by
  cases op <;> exact fun _ _ _ => complete_withPast rfl

/-- A register that is compared is not the counter or the record. -/
theorem ignoresPast_compareWith {r : State → Byte} (hr : ∀ k h s, r (withPast k h s) = r s) (d : Descriptor)
    (op : Operand) : IgnoresPast (compareWith r d op) := by
  intro k h s
  refine complete_withPast ?_
  rw [hr, loadOperand_withPast]
  rfl

theorem ignoresPast_bit (d : Descriptor) (op : Operand) : IgnoresPast (bit d op) := by
  cases op <;> exact fun _ _ _ => complete_withPast rfl

theorem ignoresPast_changeMemory (f : Byte → Byte) (d : Descriptor) (place : Place) :
    IgnoresPast (changeMemory f d place) := by
  cases place <;> exact fun _ _ _ => complete_withPast rfl

theorem ignoresPast_shiftPlace (f : Byte → Byte × Bool) (d : Descriptor) (place : Place) :
    IgnoresPast (shiftPlace f d place) := by
  cases place <;> exact fun _ _ _ => complete_withPast rfl

/-- The carry that a rotate takes in is not the counter or the record. -/
theorem ignoresPast_rol (d : Descriptor) (place : Place) : IgnoresPast (rol d place) := fun k h s =>
  ignoresPast_shiftPlace (rotateLeft s.c) d place k h s

theorem ignoresPast_ror (d : Descriptor) (place : Place) : IgnoresPast (ror d place) := fun k h s =>
  ignoresPast_shiftPlace (rotateRight s.c) d place k h s

theorem ignoresPast_branch (cond : Bool) (d : Descriptor) (disp : Byte) : IgnoresPast (branch cond d disp) := by
  cases cond <;> exact fun _ _ _ => complete_withPast rfl

/-- A result with a past put before the state it leaves. -/
def resultWithPast (k : Nat) (h : List Transaction) : Result → Result
  | .next t => .next (withPast k h t)
  | .fault (.illegalOpcode opcode addr final) => .fault (.illegalOpcode opcode addr (withPast k h final))
  | .refused r => .refused r

theorem next_withPast {f : State → State} (hf : IgnoresPast f) (k : Nat) (h : List Transaction) (s : State) :
    (.next (f (withPast k h s)) : Result) = resultWithPast k h (.next (f s)) :=
  congrArg Host.Outcome.next (hf k h s)

theorem exec_withPast (i : Instr) (k : Nat) (h : List Transaction) (s : State) :
    exec i (withPast k h s) = resultWithPast k h (exec i s) := by
  match i with
  | .ldaImm _ => exact next_withPast (ignoresPast_lda _ _) k h s
  | .ldaZp _ | .ldaZpX _ | .ldaAbs _ | .ldaAbsX _ | .ldaAbsY _ | .ldaIndX _ | .ldaIndY _ =>
    exact next_withPast (ignoresPast_onOperand (ignoresPast_lda _) _) k h s
  | .ldxImm _ => exact next_withPast (ignoresPast_ldx _ _) k h s
  | .ldxZp _ | .ldxZpY _ | .ldxAbs _ | .ldxAbsY _ =>
    exact next_withPast (ignoresPast_onOperand (ignoresPast_ldx _) _) k h s
  | .ldyImm _ => exact next_withPast (ignoresPast_ldy _ _) k h s
  | .ldyZp _ | .ldyZpX _ | .ldyAbs _ | .ldyAbsX _ =>
    exact next_withPast (ignoresPast_onOperand (ignoresPast_ldy _) _) k h s
  | .staZp _ | .staZpX _ | .staAbs _ | .staAbsX _ | .staAbsY _ | .staIndX _ | .staIndY _ =>
    exact next_withPast (ignoresPast_onAddress (ignoresPast_sta _) _) k h s
  | .stxZp _ | .stxZpY _ | .stxAbs _ =>
    exact next_withPast (ignoresPast_onAddress (ignoresPast_stx _) _) k h s
  | .styZp _ | .styZpX _ | .styAbs _ =>
    exact next_withPast (ignoresPast_onAddress (ignoresPast_sty _) _) k h s
  | .adcImm _ => exact next_withPast (ignoresPast_adc _ _) k h s
  | .adcZp _ | .adcZpX _ | .adcAbs _ | .adcAbsX _ | .adcAbsY _ | .adcIndX _ | .adcIndY _ =>
    exact next_withPast (ignoresPast_onOperand (ignoresPast_adc _) _) k h s
  | .sbcImm _ => exact next_withPast (ignoresPast_sbc _ _) k h s
  | .sbcZp _ | .sbcZpX _ | .sbcAbs _ | .sbcAbsX _ | .sbcAbsY _ | .sbcIndX _ | .sbcIndY _ =>
    exact next_withPast (ignoresPast_onOperand (ignoresPast_sbc _) _) k h s
  | .incZp _ | .incZpX _ | .incAbs _ | .incAbsX _ | .decZp _ | .decZpX _ | .decAbs _ | .decAbsX _ =>
    exact next_withPast (ignoresPast_onPlace (ignoresPast_changeMemory _ _) _) k h s
  | .aslAcc | .lsrAcc => exact next_withPast (ignoresPast_shiftPlace _ _ _) k h s
  | .rolAcc => exact next_withPast (ignoresPast_rol _ _) k h s
  | .rorAcc => exact next_withPast (ignoresPast_ror _ _) k h s
  | .aslZp _ | .aslZpX _ | .aslAbs _ | .aslAbsX _ | .lsrZp _ | .lsrZpX _ | .lsrAbs _ | .lsrAbsX _ =>
    exact next_withPast (ignoresPast_onPlace (ignoresPast_shiftPlace _ _) _) k h s
  | .rolZp _ | .rolZpX _ | .rolAbs _ | .rolAbsX _ =>
    exact next_withPast (ignoresPast_onPlace (ignoresPast_rol _) _) k h s
  | .rorZp _ | .rorZpX _ | .rorAbs _ | .rorAbsX _ =>
    exact next_withPast (ignoresPast_onPlace (ignoresPast_ror _) _) k h s
  | .andImm _ | .oraImm _ | .eorImm _ => exact next_withPast (ignoresPast_logic _ _ _) k h s
  | .andZp _ | .andZpX _ | .andAbs _ | .andAbsX _ | .andAbsY _ | .andIndX _ | .andIndY _ | .oraZp _
  | .oraZpX _ | .oraAbs _ | .oraAbsX _ | .oraAbsY _ | .oraIndX _ | .oraIndY _ | .eorZp _ | .eorZpX _
  | .eorAbs _ | .eorAbsX _ | .eorAbsY _ | .eorIndX _ | .eorIndY _ =>
    exact next_withPast (ignoresPast_onOperand (ignoresPast_logic _ _) _) k h s
  | .cmpImm _ | .cpxImm _ | .cpyImm _ =>
    exact next_withPast (ignoresPast_compareWith (fun _ _ _ => rfl) _ _) k h s
  | .cmpZp _ | .cmpZpX _ | .cmpAbs _ | .cmpAbsX _ | .cmpAbsY _ | .cmpIndX _ | .cmpIndY _ | .cpxZp _
  | .cpxAbs _ | .cpyZp _ | .cpyAbs _ =>
    exact next_withPast (ignoresPast_onOperand (ignoresPast_compareWith (fun _ _ _ => rfl) _) _) k h s
  | .bcc _ | .bcs _ | .beq _ | .bne _ | .bmi _ | .bpl _ | .bvc _ | .bvs _ =>
    exact congrArg Host.Outcome.next (ignoresPast_branch _ _ _ k h s)
  | .jmpAbs _ | .jmpInd _ =>
    exact next_withPast (ignoresPast_onAddress (ignoresPast_jmp _) _) k h s
  | .jsr _ =>
    exact next_withPast (ignoresPast_onAddress (ignoresPast_jsr _) _) k h s
  | .bitZp _ | .bitAbs _ => exact next_withPast (ignoresPast_onOperand (ignoresPast_bit _) _) k h s
  | .tax | .tay | .txa | .tya | .tsx | .txs | .inx | .iny | .dex | .dey | .clc | .sec | .cli | .sei | .cld
  | .sed | .clv | .nop | .rts | .pha | .pla | .php | .plp =>
    exact congrArg Host.Outcome.next (complete_withPast rfl)
  | .brk => exact congrArg Host.Outcome.next (complete_withPast (ignoresPast_enterBrk k h s))
  | .rti => exact congrArg Host.Outcome.next (complete_withPast (ignoresPast_returnFromBrk k h s))

/-! ## The step -/

theorem fetch8_withPast (k : Nat) (h : List Transaction) (s : State) :
    fetch8 (withPast k h s) = ((fetch8 s).1, withPast k h (fetch8 s).2) := rfl

theorem fetchOperand_withPast (e : Entry) (k : Nat) (h : List Transaction) (s : State) :
    fetchOperand e (withPast k h s) = ((fetchOperand e s).1, withPast k h (fetchOperand e s).2) := by
  cases e <;> rfl

/-- What a step does is settled by RUN and the state its fetch begins in. -/
theorem step_of_beginStep_eq {s t : State} {k : Nat} {h : List Transaction} (hrun : s.run = t.run)
    (hs : beginStep s = withPast k h (beginStep t)) : step s = resultWithPast k h (step t) := by
  cases hr : t.run with
  | halted => simp [step, hrun, hr, resultWithPast]
  | faulted opcode addr => simp [step, hrun, hr, resultWithPast]
  | running =>
    rw [step_of_running hr, step_of_running (hrun.trans hr), hs]
    simp only [fetchInstr, fetch8_withPast]
    cases lookupOpcode (fetch8 (beginStep t)).1 with
    | none => rfl
    | some e => simp only [fetchOperand_withPast, exec_withPast]

/-- What a step does to a state's past is to keep it. -/
theorem step_eq_resultWithPast (s : State) :
    step s = resultWithPast s.cyc (s.history ++ s.trace) (step (withoutPast s)) :=
  step_of_beginStep_eq rfl (beginStep_eq_withPast s)

theorem sameOutcome_resultWithPast (s s' : State) (h h' : List Transaction) (r : Result) :
    SameOutcome s s' (resultWithPast s.cyc h r) (resultWithPast s'.cyc h' r) := by
  match r with
  | .next t =>
    exact ⟨sameMachine_withPast _ _ _ _ t, rfl, by simp only [withPast]; omega⟩
  | .fault (.illegalOpcode opcode addr final) => exact ⟨rfl, rfl, sameMachine_withPast _ _ _ _ final⟩
  | .refused _ => rfl

/-- Settles O54: both steps are the step of the one state without a past, each with its own past put back. -/
theorem cyclesAndHistoryInfluenceNothing : Obligations.CyclesAndHistoryInfluenceNothing := by
  intro s s' hsame
  rw [step_eq_resultWithPast s, step_eq_resultWithPast s', sameMachine_iff.1 hsame]
  exact sameOutcome_resultWithPast s s' _ _ _

end Sys2Proof.Proofs
end

section
/-! Who writes what (10_state.md R25, R32; 20_memory.md R56): one rule per update of the state says which part it writes, a
shared rule of the meanings composes them, and each instruction writes only the parts whose tables name it. -/

namespace Sys2Proof.Proofs

open Machine Safety Laws

/-- The parts of the state that have a column of writers; N and Z share theirs. -/
inductive Part where
  | a | x | y | sp | pc | c | nz | i | d | b | v | mem

/-- The part is as it was. -/
def Part.Same (s t : State) : Part → Prop
  | .a => t.a = s.a
  | .x => t.x = s.x
  | .y => t.y = s.y
  | .sp => t.sp = s.sp
  | .pc => t.pc = s.pc
  | .c => t.c = s.c
  | .nz => t.n = s.n ∧ t.z = s.z
  | .i => t.i = s.i
  | .d => t.d = s.d
  | .b => t.b = s.b
  | .v => t.v = s.v
  | .mem => t.mem = s.mem

theorem Part.Same.trans {s t u : State} {p : Part} (h : p.Same s t) (h' : p.Same t u) : p.Same s u := by
  cases p with
  | nz => exact ⟨h'.1.trans h.1, h'.2.trans h.2⟩
  | _ => exact Eq.trans h' h

/-- From `s` to `t` the listed parts may have changed; every other part is as it was. -/
def Writes (ps : List Part) (s t : State) : Prop := ∀ p, p ∈ ps ∨ p.Same s t

/-! ## The updates of the state -/

section
variable {ps : List Part} {s t : State}

theorem Writes.refl (s : State) : Writes [] s s := fun p => .inr (by cases p <;> simp [Part.Same])

/-- One more update, of one part. -/
theorem Writes.andThen {u : State} {q : Part} (h : Writes ps s t) (hu : ∀ p, p = q ∨ p.Same t u) :
    Writes (q :: ps) s u := fun p => by
  rcases hu p with rfl | hp
  · exact .inl (by simp)
  · exact (h p).imp (List.mem_cons_of_mem q) fun hs => hs.trans hp

/-- The cycle counter and the port's record have no column. -/
theorem Writes.setCycTrace (h : Writes ps s t) (cyc : Nat) (trace : List Transaction) :
    Writes ps s { t with cyc := cyc, trace := trace } := fun p =>
  (h p).imp_right fun hs => hs.trans (by cases p <;> simp [Part.Same])

theorem Writes.complete (h : Writes ps s t) (d : Descriptor) (extra : Nat) :
    Writes ps s (Machine.complete d extra t) := h.setCycTrace _ _

theorem Writes.setA (h : Writes ps s t) (a : Byte) : Writes (.a :: ps) s { t with a := a } :=
  h.andThen fun p => by cases p <;> simp [Part.Same]

theorem Writes.setX (h : Writes ps s t) (x : Byte) : Writes (.x :: ps) s { t with x := x } :=
  h.andThen fun p => by cases p <;> simp [Part.Same]

theorem Writes.setY (h : Writes ps s t) (y : Byte) : Writes (.y :: ps) s { t with y := y } :=
  h.andThen fun p => by cases p <;> simp [Part.Same]

theorem Writes.setSP (h : Writes ps s t) (sp : Byte) : Writes (.sp :: ps) s { t with sp := sp } :=
  h.andThen fun p => by cases p <;> simp [Part.Same]

theorem Writes.setPC (h : Writes ps s t) (pc : Word) : Writes (.pc :: ps) s { t with pc := pc } :=
  h.andThen fun p => by cases p <;> simp [Part.Same]

theorem Writes.setC (h : Writes ps s t) (c : Bool) : Writes (.c :: ps) s { t with c := c } :=
  h.andThen fun p => by cases p <;> simp [Part.Same]

theorem Writes.setFlagsNZ (h : Writes ps s t) (n z : Bool) : Writes (.nz :: ps) s { t with n := n, z := z } :=
  h.andThen fun p => by cases p <;> simp [Part.Same]

theorem Writes.setI (h : Writes ps s t) (i : Bool) : Writes (.i :: ps) s { t with i := i } :=
  h.andThen fun p => by cases p <;> simp [Part.Same]

theorem Writes.setD (h : Writes ps s t) (d : Bool) : Writes (.d :: ps) s { t with d := d } :=
  h.andThen fun p => by cases p <;> simp [Part.Same]

theorem Writes.setB (h : Writes ps s t) (b : Bool) : Writes (.b :: ps) s { t with b := b } :=
  h.andThen fun p => by cases p <;> simp [Part.Same]

theorem Writes.setV (h : Writes ps s t) (v : Bool) : Writes (.v :: ps) s { t with v := v } :=
  h.andThen fun p => by cases p <;> simp [Part.Same]

theorem Writes.setMem (h : Writes ps s t) (mem : Memory) : Writes (.mem :: ps) s { t with mem := mem } :=
  h.andThen fun p => by cases p <;> simp [Part.Same]

/-! ## The shared operations -/

theorem Writes.setNZ (h : Writes ps s t) (r : Byte) : Writes (.nz :: ps) s (Machine.setNZ r t) := h.setFlagsNZ _ _

theorem Writes.setStatus (h : Writes ps s t) (p : Byte) :
    Writes (.nz :: .v :: .b :: .d :: .i :: .c :: ps) s (Machine.setStatus p t) :=
  (((((h.setC (p.getLsbD 0)).setI (p.getLsbD 2)).setD (p.getLsbD 3)).setB (p.getLsbD 4)).setV (p.getLsbD 6)).setFlagsNZ
    (p.getLsbD 7) (p.getLsbD 1)

theorem Writes.memWrite (h : Writes ps s t) (addr : Word) (val : Byte) :
    Writes (.mem :: ps) s (Machine.memWrite addr val t) := (h.setMem _).setCycTrace _ _

theorem Writes.push (h : Writes ps s t) (val : Byte) : Writes (.sp :: .mem :: ps) s (Machine.push val t) :=
  (h.memWrite _ _).setSP _

theorem Writes.pull (h : Writes ps s t) : Writes (.sp :: ps) s (Machine.pull t).2 := (h.setSP _).setCycTrace _ _

theorem Writes.resolve (h : Writes ps s t) (mode : MemMode) : Writes ps s (Machine.resolve mode t).2 := by
  rw [resolve_snd]
  exact h.setCycTrace _ _

theorem Writes.loadOperand (h : Writes ps s t) (op : Operand) : Writes ps s (Machine.loadOperand op t).2 := by
  rw [loadOperand_snd]
  exact h.setCycTrace _ _

/-- The part a place is in. -/
def placePart : Place → Part
  | .acc => .a
  | .addr _ => .mem

theorem Writes.storeOperand (h : Writes ps s t) (place : Place) (val : Byte) :
    Writes (placePart place :: ps) s (Machine.storeOperand place val t) := by
  cases place with
  | acc => exact h.setA val
  | addr p => exact h.memWrite p.ea val

end

theorem writes_enterBrk (s : State) : Writes [.mem, .i, .b, .sp, .pc] s (enterBrk s) := by
  rw [enterBrk_eq]
  exact ((((((Writes.refl s).setPC _).setSP (s.sp - 3#8)).setB true).setI true).setMem _).setCycTrace _ _

theorem writes_returnFromBrk (s : State) :
    Writes [.pc, .sp, .sp, .nz, .v, .b, .d, .i, .c, .sp] s (returnFromBrk s) :=
  ((Writes.refl s).pull.setStatus _).pull.pull.setPC _

/-- Resolving writes no part, so what follows it writes what the whole does. -/
theorem writes_of_resolve {ps : List Part} {s u : State} {mode : MemMode} (h : Writes ps (resolve mode s).2 u) :
    Writes ps s u := fun p =>
  (h p).imp_right (((Writes.refl s).resolve mode p).resolve_left List.not_mem_nil).trans

theorem writes_onOperand {ps : List Part} {rule : Operand → State → State} (h : ∀ op s, Writes ps s (rule op s))
    (mode : MemMode) (s : State) : Writes ps s (onOperand mode rule s) := writes_of_resolve (h _ _)

theorem writes_onPlace {ps : List Part} {rule : Place → State → State} (h : ∀ p s, Writes ps s (rule (.addr p) s))
    (mode : MemMode) (s : State) : Writes ps s (onPlace mode rule s) := writes_of_resolve (h _ _)

theorem writes_onAddress {ps : List Part} {rule : Address → State → State} (h : ∀ p s, Writes ps s (rule p s))
    (mode : MemMode) (s : State) : Writes ps s (onAddress mode rule s) := writes_of_resolve (h _ _)

/-! ## The shared rules -/

section
variable (d : Descriptor) (op : Operand) (place : Place) (p : Address) (s : State)

theorem writes_lda : Writes [.nz, .a] s (lda d op s) :=
  ((((Writes.refl s).loadOperand op).setA _).setNZ _).complete d _

theorem writes_ldx : Writes [.nz, .x] s (ldx d op s) :=
  ((((Writes.refl s).loadOperand op).setX _).setNZ _).complete d _

theorem writes_ldy : Writes [.nz, .y] s (ldy d op s) :=
  ((((Writes.refl s).loadOperand op).setY _).setNZ _).complete d _

theorem writes_sta : Writes [.mem] s (sta d p s) := ((Writes.refl s).storeOperand (.addr p) _).complete d _

theorem writes_stx : Writes [.mem] s (stx d p s) := ((Writes.refl s).storeOperand (.addr p) _).complete d _

theorem writes_sty : Writes [.mem] s (sty d p s) := ((Writes.refl s).storeOperand (.addr p) _).complete d _

theorem writes_adc : Writes [.nz, .v, .c, .a] s (adc d op s) :=
  ((((((Writes.refl s).loadOperand op).setA _).setC _).setV _).setNZ _).complete d _

theorem writes_sbc : Writes [.nz, .v, .c, .a] s (sbc d op s) :=
  ((((((Writes.refl s).loadOperand op).setA _).setC _).setV _).setNZ _).complete d _

theorem writes_logic (f : Byte → Byte → Byte) : Writes [.nz, .a] s (logic f d op s) :=
  ((((Writes.refl s).loadOperand op).setA _).setNZ _).complete d _

theorem writes_compareWith (r : State → Byte) : Writes [.nz, .c] s (compareWith r d op s) :=
  ((((Writes.refl s).loadOperand op).setC _).setNZ _).complete d _

theorem writes_bit : Writes [.nz, .v] s (bit d op s) :=
  ((((Writes.refl s).loadOperand op).setV ((loadOperand op s).1.getLsbD 6)).setFlagsNZ _ _).complete d _

theorem writes_changeMemory (f : Byte → Byte) : Writes [.nz, placePart place] s (changeMemory f d place s) :=
  ((((Writes.refl s).loadOperand _).storeOperand place _).setNZ _).complete d _

theorem writes_shiftPlace (f : Byte → Byte × Bool) : Writes [.nz, placePart place, .c] s (shiftPlace f d place s) :=
  (((((Writes.refl s).loadOperand _).setC _).storeOperand place _).setNZ _).complete d _

theorem writes_branch (cond : Bool) (disp : Byte) : Writes [.pc] s (branch cond d disp s) := by
  cases cond with
  | true => exact ((Writes.refl s).setPC _).complete d _
  | false => exact ((Writes.refl s).setPC s.pc).complete d _

theorem writes_jmp : Writes [.pc] s (jmp d p s) := ((Writes.refl s).setPC _).complete d _

theorem writes_jsr : Writes [.pc, .sp, .mem, .sp, .mem] s (jsr d p s) :=
  ((((Writes.refl s).push _).push _).setPC _).complete d _

theorem writes_rts : Writes [.pc, .sp, .sp] s (rts d s) := (((Writes.refl s).pull.pull).setPC _).complete d _

theorem writes_pla : Writes [.nz, .a, .sp] s (pla d s) := (((Writes.refl s).pull.setA _).setNZ _).complete d _

theorem writes_plp : Writes [.nz, .v, .b, .d, .i, .c, .sp] s (plp d s) :=
  ((Writes.refl s).pull.setStatus _).complete d _

end

/-! ## All meanings -/

/-- Whether the column of a part names the form as a writer: the tables of Safety.lean, by part. -/
def columnNames (f : Form) : Part → Bool
  | .a => writesA f
  | .x => writersOfX.contains f.mnemonic
  | .y => writersOfY.contains f.mnemonic
  | .sp => writersOfSP.contains f.mnemonic
  | .pc => writersOfPC.contains f.mnemonic
  | .c => writersOfC.contains f.mnemonic
  | .nz => writersOfNZ.contains f.mnemonic
  | .i => writersOfI.contains f.mnemonic
  | .d => writersOfD.contains f.mnemonic
  | .b => writersOfB.contains f.mnemonic
  | .v => writersOfV.contains f.mnemonic
  | .mem => writesMemory f

/-- Every meaning answers a next state in which it wrote only parts whose columns name it. -/
theorem exec_writes (i : Instr) (s : State) :
    ∃ t ps, exec i s = .next t ∧ Writes ps s t ∧ ps.all (columnNames i.form) = true := by
  match i with
  | .ldaImm _ => exact ⟨_, _, rfl, writes_lda _ _ s, rfl⟩
  | .ldaZp _ | .ldaZpX _ | .ldaAbs _ | .ldaAbsX _ | .ldaAbsY _ | .ldaIndX _ | .ldaIndY _ =>
    exact ⟨_, _, rfl, writes_onOperand (writes_lda _) _ s, rfl⟩
  | .ldxImm _ => exact ⟨_, _, rfl, writes_ldx _ _ s, rfl⟩
  | .ldxZp _ | .ldxZpY _ | .ldxAbs _ | .ldxAbsY _ =>
    exact ⟨_, _, rfl, writes_onOperand (writes_ldx _) _ s, rfl⟩
  | .ldyImm _ => exact ⟨_, _, rfl, writes_ldy _ _ s, rfl⟩
  | .ldyZp _ | .ldyZpX _ | .ldyAbs _ | .ldyAbsX _ =>
    exact ⟨_, _, rfl, writes_onOperand (writes_ldy _) _ s, rfl⟩
  | .staZp _ | .staZpX _ | .staAbs _ | .staAbsX _ | .staAbsY _ | .staIndX _ | .staIndY _ =>
    exact ⟨_, _, rfl, writes_onAddress (writes_sta _) _ s, rfl⟩
  | .stxZp _ | .stxZpY _ | .stxAbs _ => exact ⟨_, _, rfl, writes_onAddress (writes_stx _) _ s, rfl⟩
  | .styZp _ | .styZpX _ | .styAbs _ => exact ⟨_, _, rfl, writes_onAddress (writes_sty _) _ s, rfl⟩
  | .tax | .tsx | .inx | .dex => exact ⟨_, _, rfl, (((Writes.refl s).setX _).setNZ _).complete _ _, rfl⟩
  | .tay | .iny | .dey => exact ⟨_, _, rfl, (((Writes.refl s).setY _).setNZ _).complete _ _, rfl⟩
  | .txa | .tya => exact ⟨_, _, rfl, (((Writes.refl s).setA _).setNZ _).complete _ _, rfl⟩
  | .txs => exact ⟨_, _, rfl, ((Writes.refl s).setSP _).complete _ _, rfl⟩
  | .adcImm _ => exact ⟨_, _, rfl, writes_adc _ _ s, rfl⟩
  | .adcZp _ | .adcZpX _ | .adcAbs _ | .adcAbsX _ | .adcAbsY _ | .adcIndX _ | .adcIndY _ =>
    exact ⟨_, _, rfl, writes_onOperand (writes_adc _) _ s, rfl⟩
  | .sbcImm _ => exact ⟨_, _, rfl, writes_sbc _ _ s, rfl⟩
  | .sbcZp _ | .sbcZpX _ | .sbcAbs _ | .sbcAbsX _ | .sbcAbsY _ | .sbcIndX _ | .sbcIndY _ =>
    exact ⟨_, _, rfl, writes_onOperand (writes_sbc _) _ s, rfl⟩
  | .incZp _ | .incZpX _ | .incAbs _ | .incAbsX _ | .decZp _ | .decZpX _ | .decAbs _ | .decAbsX _ =>
    exact ⟨_, _, rfl, writes_onPlace (ps := [.nz, .mem]) (fun p s => writes_changeMemory _ (.addr p) s _) _ s, rfl⟩
  | .aslAcc | .lsrAcc | .rolAcc | .rorAcc => exact ⟨_, _, rfl, writes_shiftPlace _ .acc s _, rfl⟩
  | .aslZp _ | .aslZpX _ | .aslAbs _ | .aslAbsX _ | .lsrZp _ | .lsrZpX _ | .lsrAbs _ | .lsrAbsX _ | .rolZp _
  | .rolZpX _ | .rolAbs _ | .rolAbsX _ | .rorZp _ | .rorZpX _ | .rorAbs _ | .rorAbsX _ =>
    exact ⟨_, _, rfl, writes_onPlace (ps := [.nz, .mem, .c]) (fun p s => writes_shiftPlace _ (.addr p) s _) _ s, rfl⟩
  | .andImm _ | .oraImm _ | .eorImm _ => exact ⟨_, _, rfl, writes_logic _ _ s _, rfl⟩
  | .andZp _ | .andZpX _ | .andAbs _ | .andAbsX _ | .andAbsY _ | .andIndX _ | .andIndY _ | .oraZp _
  | .oraZpX _ | .oraAbs _ | .oraAbsX _ | .oraAbsY _ | .oraIndX _ | .oraIndY _ | .eorZp _ | .eorZpX _
  | .eorAbs _ | .eorAbsX _ | .eorAbsY _ | .eorIndX _ | .eorIndY _ =>
    exact ⟨_, _, rfl, writes_onOperand (fun op s => writes_logic _ op s _) _ s, rfl⟩
  | .cmpImm _ | .cpxImm _ | .cpyImm _ => exact ⟨_, _, rfl, writes_compareWith _ _ s _, rfl⟩
  | .cmpZp _ | .cmpZpX _ | .cmpAbs _ | .cmpAbsX _ | .cmpAbsY _ | .cmpIndX _ | .cmpIndY _ | .cpxZp _
  | .cpxAbs _ | .cpyZp _ | .cpyAbs _ =>
    exact ⟨_, _, rfl, writes_onOperand (fun op s => writes_compareWith _ op s _) _ s, rfl⟩
  | .bcc _ | .bcs _ | .beq _ | .bne _ | .bmi _ | .bpl _ | .bvc _ | .bvs _ =>
    exact ⟨_, _, rfl, writes_branch _ s _ _, rfl⟩
  | .jmpAbs _ | .jmpInd _ => exact ⟨_, _, rfl, writes_onAddress (writes_jmp _) _ s, rfl⟩
  | .jsr _ => exact ⟨_, _, rfl, writes_onAddress (writes_jsr _) _ s, rfl⟩
  | .rts => exact ⟨_, _, rfl, writes_rts _ s, rfl⟩
  | .pha | .php => exact ⟨_, _, rfl, ((Writes.refl s).push _).complete _ _, rfl⟩
  | .pla => exact ⟨_, _, rfl, writes_pla _ s, rfl⟩
  | .plp => exact ⟨_, _, rfl, writes_plp _ s, rfl⟩
  | .clc | .sec => exact ⟨_, _, rfl, ((Writes.refl s).setC _).complete _ _, rfl⟩
  | .cli | .sei => exact ⟨_, _, rfl, ((Writes.refl s).setI _).complete _ _, rfl⟩
  | .cld | .sed => exact ⟨_, _, rfl, ((Writes.refl s).setD _).complete _ _, rfl⟩
  | .clv => exact ⟨_, _, rfl, ((Writes.refl s).setV _).complete _ _, rfl⟩
  | .bitZp _ | .bitAbs _ => exact ⟨_, _, rfl, writes_onOperand (writes_bit _) _ s, rfl⟩
  | .nop => exact ⟨_, _, rfl, (Writes.refl s).complete _ _, rfl⟩
  | .brk => exact ⟨_, _, rfl, (writes_enterBrk s).complete _ _, rfl⟩
  | .rti => exact ⟨_, _, rfl, (writes_returnFromBrk s).complete _ _, rfl⟩

/-- A part whose column does not name the instruction is as it was. -/
theorem exec_same {i : Instr} {s t : State} (h : exec i s = .next t) (p : Part) (hp : columnNames i.form p = false) :
    p.Same s t := by
  obtain ⟨t', ps, he, hw, hall⟩ := exec_writes i s
  obtain rfl : t = t' := by simpa [h] using he
  refine (hw p).resolve_left fun hmem => ?_
  exact absurd (List.all_eq_true.1 hall p hmem) (by simp [hp])

/-- Settles O47, by the columns of the flags. -/
theorem onlyTheListedInstructionsWriteAFlag : Obligations.OnlyTheListedInstructionsWriteAFlag := by
  intro i s t h
  exact ⟨fun hc => exec_same h .c (by simpa [columnNames] using hc),
    fun hnz => exec_same h .nz (by simpa [columnNames] using hnz),
    fun hi => exec_same h .i (by simpa [columnNames] using hi),
    fun hd => exec_same h .d (by simpa [columnNames] using hd),
    fun hb => exec_same h .b (by simpa [columnNames] using hb),
    fun hv => exec_same h .v (by simpa [columnNames] using hv)⟩

/-- Settles O48, by the columns of the registers and of memory; that RUN and the history stay is part of what every meaning
accounts for. -/
theorem onlyTheListedInstructionsWriteARegisterOrMemory :
    Obligations.OnlyTheListedInstructionsWriteARegisterOrMemory := by
  intro i s t h
  obtain ⟨t', he, hacc⟩ := exec_accounts i s
  obtain rfl : t = t' := by simpa [h] using he
  exact ⟨exec_same h .a,
    fun hx => exec_same h .x (by simpa [columnNames] using hx),
    fun hy => exec_same h .y (by simpa [columnNames] using hy),
    fun hsp => exec_same h .sp (by simpa [columnNames] using hsp),
    fun hpc => exec_same h .pc (by simpa [columnNames] using hpc),
    exec_same h .mem, hacc.run, hacc.history⟩

end Sys2Proof.Proofs
end

section
/-! N and Z after an instruction that calls `SetNZ` (10_state.md R26, R29): the call is the last thing the instruction does
before its cycles are added, and its argument is the byte the instruction leaves. -/

namespace Sys2Proof.Proofs

open Machine Safety Laws

/-- N and Z describe a byte. -/
def FlagsDescribe (r : Byte) (t : State) : Prop := t.z = decide (r = 0x00#8) ∧ t.n = r.getLsbD 7

theorem flagsDescribe_complete_setNZ {d : Descriptor} {extra : Nat} {r : Byte} {u : State} :
    FlagsDescribe r (complete d extra (setNZ r u)) := by
  simp [FlagsDescribe, Bool.beq_eq_decide_eq]

/-- The last transaction wrote the byte that N and Z describe. -/
def FlagsDescribeWritten (t : State) : Prop :=
  ∃ addr r, t.trace.getLast? = some (.write addr r) ∧ FlagsDescribe r t

section
variable (d : Descriptor) (op : Operand) (p : Address) (s : State)

theorem flagsDescribe_lda : FlagsDescribe (lda d op s).a (lda d op s) := flagsDescribe_complete_setNZ

theorem flagsDescribe_ldx : FlagsDescribe (ldx d op s).x (ldx d op s) := flagsDescribe_complete_setNZ

theorem flagsDescribe_ldy : FlagsDescribe (ldy d op s).y (ldy d op s) := flagsDescribe_complete_setNZ

theorem flagsDescribe_adc : FlagsDescribe (adc d op s).a (adc d op s) := flagsDescribe_complete_setNZ

theorem flagsDescribe_sbc : FlagsDescribe (sbc d op s).a (sbc d op s) := flagsDescribe_complete_setNZ

theorem flagsDescribe_logic (f : Byte → Byte → Byte) : FlagsDescribe (logic f d op s).a (logic f d op s) :=
  flagsDescribe_complete_setNZ

theorem flagsDescribe_pla : FlagsDescribe (pla d s).a (pla d s) := flagsDescribe_complete_setNZ

theorem flagsDescribe_shiftPlace_acc (f : Byte → Byte × Bool) :
    FlagsDescribe (shiftPlace f d .acc s).a (shiftPlace f d .acc s) := flagsDescribe_complete_setNZ

theorem flagsDescribeWritten_shiftPlace (f : Byte → Byte × Bool) :
    FlagsDescribeWritten (shiftPlace f d (.addr p) s) :=
  ⟨p.ea, _, by simp [shiftPlace, storeOperand], flagsDescribe_complete_setNZ⟩

theorem flagsDescribeWritten_changeMemory (f : Byte → Byte) : FlagsDescribeWritten (changeMemory f d (.addr p) s) :=
  ⟨p.ea, _, by simp [changeMemory, storeOperand], flagsDescribe_complete_setNZ⟩

end

theorem flagsDescribeWritten_onPlace {rule : Place → State → State}
    (h : ∀ p s, FlagsDescribeWritten (rule (.addr p) s)) (mode : MemMode) (s : State) :
    FlagsDescribeWritten (onPlace mode rule s) := h _ _

/-- The forms whose result is the byte they write to memory. -/
def leavesResultInMemory (f : Form) : Bool :=
  [Mnemonic.asl, .lsr, .rol, .ror, .inc, .dec].contains f.mnemonic && f.mode != .accumulator

theorem resultByte_of_written {f : Form} {t : State} {addr : Word} {r : Byte} (hf : leavesResultInMemory f = true)
    (ht : t.trace.getLast? = some (.write addr r)) : resultByte f t = some r := by
  obtain ⟨m, mode⟩ := f
  simp only [leavesResultInMemory, Bool.and_eq_true, List.contains_iff_mem, bne_iff_ne] at hf
  obtain ⟨hm, hmode⟩ := hf
  simp only [List.mem_cons, List.not_mem_nil, or_false] at hm
  rcases hm with rfl | rfl | rfl | rfl | rfl | rfl <;> simp [resultByte, hmode, ht]

/-- An instruction that leaves its result in memory, from what the flags describe after it. -/
theorem nz_of_written {i : Instr} {s t : State} (he : exec i s = .next t) (hf : leavesResultInMemory i.form = true)
    (ht : FlagsDescribeWritten t) :
    ∃ t r, exec i s = .next t ∧ resultByte i.form t = some r ∧ FlagsDescribe r t := by
  obtain ⟨addr, r, hlast, hr⟩ := ht
  exact ⟨t, r, he, resultByte_of_written hf hlast, hr⟩

/-- The N/Z invariant, by the rule that gives each instruction its meaning. -/
theorem exec_flagsDescribe_resultByte (i : Instr) (s : State) (hcalls : i.form.mnemonic ∈ callsSetNZ)
    (hstores : i.form.mnemonic ∉ [Mnemonic.cmp, .cpx, .cpy]) :
    ∃ t r, exec i s = .next t ∧ resultByte i.form t = some r ∧ FlagsDescribe r t := by
  match i with
  | .ldaImm _ => exact ⟨_, _, rfl, rfl, flagsDescribe_lda _ _ s⟩
  | .ldaZp _ | .ldaZpX _ | .ldaAbs _ | .ldaAbsX _ | .ldaAbsY _ | .ldaIndX _ | .ldaIndY _ =>
    exact ⟨_, _, rfl, rfl, flagsDescribe_lda _ _ _⟩
  | .ldxImm _ | .ldxZp _ | .ldxZpY _ | .ldxAbs _ | .ldxAbsY _ => exact ⟨_, _, rfl, rfl, flagsDescribe_ldx _ _ _⟩
  | .ldyImm _ | .ldyZp _ | .ldyZpX _ | .ldyAbs _ | .ldyAbsX _ => exact ⟨_, _, rfl, rfl, flagsDescribe_ldy _ _ _⟩
  | .adcImm _ | .adcZp _ | .adcZpX _ | .adcAbs _ | .adcAbsX _ | .adcAbsY _ | .adcIndX _ | .adcIndY _ =>
    exact ⟨_, _, rfl, rfl, flagsDescribe_adc _ _ _⟩
  | .sbcImm _ | .sbcZp _ | .sbcZpX _ | .sbcAbs _ | .sbcAbsX _ | .sbcAbsY _ | .sbcIndX _ | .sbcIndY _ =>
    exact ⟨_, _, rfl, rfl, flagsDescribe_sbc _ _ _⟩
  | .andImm _ | .andZp _ | .andZpX _ | .andAbs _ | .andAbsX _ | .andAbsY _ | .andIndX _ | .andIndY _
  | .oraImm _ | .oraZp _ | .oraZpX _ | .oraAbs _ | .oraAbsX _ | .oraAbsY _ | .oraIndX _ | .oraIndY _
  | .eorImm _ | .eorZp _ | .eorZpX _ | .eorAbs _ | .eorAbsX _ | .eorAbsY _ | .eorIndX _ | .eorIndY _ =>
    exact ⟨_, _, rfl, rfl, flagsDescribe_logic _ _ _ _⟩
  | .pla => exact ⟨_, _, rfl, rfl, flagsDescribe_pla _ s⟩
  | .tax | .tay | .txa | .tya | .tsx | .inx | .iny | .dex | .dey =>
    exact ⟨_, _, rfl, rfl, flagsDescribe_complete_setNZ⟩
  | .aslAcc | .lsrAcc | .rolAcc | .rorAcc => exact ⟨_, _, rfl, rfl, flagsDescribe_shiftPlace_acc _ s _⟩
  | .aslZp _ | .aslZpX _ | .aslAbs _ | .aslAbsX _ | .lsrZp _ | .lsrZpX _ | .lsrAbs _ | .lsrAbsX _ | .rolZp _
  | .rolZpX _ | .rolAbs _ | .rolAbsX _ | .rorZp _ | .rorZpX _ | .rorAbs _ | .rorAbsX _ =>
    exact nz_of_written rfl rfl (flagsDescribeWritten_onPlace (fun p s => flagsDescribeWritten_shiftPlace _ p s _) _ s)
  | .incZp _ | .incZpX _ | .incAbs _ | .incAbsX _ | .decZp _ | .decZpX _ | .decAbs _ | .decAbsX _ =>
    exact nz_of_written rfl rfl (flagsDescribeWritten_onPlace (fun p s => flagsDescribeWritten_changeMemory _ p s _) _ s)
  | .cmpImm _ | .cmpZp _ | .cmpZpX _ | .cmpAbs _ | .cmpAbsX _ | .cmpAbsY _ | .cmpIndX _ | .cmpIndY _
  | .cpxImm _ | .cpxZp _ | .cpxAbs _ | .cpyImm _ | .cpyZp _ | .cpyAbs _ =>
    exact absurd (List.mem_of_elem_eq_true rfl) hstores
  | .staZp _ | .staZpX _ | .staAbs _ | .staAbsX _ | .staAbsY _ | .staIndX _ | .staIndY _ | .stxZp _ | .stxZpY _
  | .stxAbs _ | .styZp _ | .styZpX _ | .styAbs _ | .txs | .bcc _ | .bcs _ | .beq _ | .bne _ | .bmi _ | .bpl _
  | .bvc _ | .bvs _ | .jmpAbs _ | .jmpInd _ | .jsr _ | .rts | .pha | .php | .plp | .clc | .sec | .cli | .sei
  | .cld | .sed | .clv | .bitZp _ | .bitAbs _ | .nop | .brk | .rti =>
    exact absurd (List.elem_eq_true_of_mem hcalls) Bool.false_ne_true

/-- Settles O49: what the flags describe is what the statement says of them. -/
theorem nAndZDescribeTheResultByte : Obligations.NAndZDescribeTheResultByte := exec_flagsDescribe_resultByte

end Sys2Proof.Proofs
end

section
/-! The status byte (10_state.md R27, R28, R30) as the list of its bits. -/

namespace Sys2Proof.Proofs

open Machine

/-- R27's order, from bit 0 up. -/
theorem statusByte_eq_bits (s : State) :
    statusByte s = BitVec.ofBoolListLE [s.c, s.z, s.i, s.d, s.b, true, s.v, s.n] := by
  simp only [statusByte]
  generalize s.c = c, s.z = z, s.i = i, s.d = d, s.b = b, s.v = v, s.n = n
  revert c z i d b v n
  decide

theorem getLsbD_statusByte (s : State) (k : Nat) :
    (statusByte s).getLsbD k = [s.c, s.z, s.i, s.d, s.b, true, s.v, s.n].getD k false := by
  rw [statusByte_eq_bits]
  exact BitVec.getLsbD_ofBoolListLE

theorem setStatus_statusByte (s : State) : setStatus (statusByte s) s = s := by
  simp only [setStatus, getLsbD_statusByte]
  rfl

/-- Bit 5 of the mask is the one that no flag holds. -/
theorem getLsbD_bitFive {k : Nat} (hk : k < 8) : (0x20#8).getLsbD k = decide (k = 5) := by
  interval_cases k <;> rfl

theorem statusByte_setStatus (p : Byte) (s : State) : statusByte (setStatus p s) = p ||| 0x20#8 := by
  refine BitVec.eq_of_getLsbD_eq fun k hk => ?_
  rw [getLsbD_statusByte, BitVec.getLsbD_or, getLsbD_bitFive hk]
  interval_cases k <;> simp

theorem setStatus_xor_bitFive (p : Byte) (s : State) : setStatus (p ^^^ 0x20#8) s = setStatus p s := by
  simp [setStatus]

/-- Settles O42: each flag is read off the list of bits. -/
theorem statusByteHoldsTheSevenFlags : Obligations.StatusByteHoldsTheSevenFlags := by
  refine ⟨fun s => ?_, fun p s => ⟨statusByte_setStatus p s, setStatus_xor_bitFive p s⟩⟩
  have hbit := getLsbD_statusByte s
  exact ⟨hbit 7, hbit 6, hbit 5, hbit 4, hbit 3, hbit 2, hbit 1, hbit 0, setStatus_statusByte s⟩

end Sys2Proof.Proofs
end

section
/-! When a step is enabled (10_state.md R34; log entry 6). -/

namespace Sys2Proof.Proofs

open Machine Laws

/-- A running step is the fault of its fetch or what its meaning answers, and every meaning answers a next state. -/
theorem step_ne_refused_of_running {s : State} (h : s.run = .running) (r : Refusal) : step s ≠ .refused r := by
  rw [step_of_running h]
  cases fetchInstr (beginStep s) with
  | error f => simp
  | ok r =>
    obtain ⟨t, he, -⟩ := exec_accounts r.1 r.2
    simp [he]

/-- Settles O9, by the run status. -/
theorem stepIsEnabledOnlyInRunning : Obligations.StepIsEnabledOnlyInRunning := by
  intro s
  cases hr : s.run with
  | running => simp [step_ne_refused_of_running hr]
  | halted => simp [step, hr]
  | faulted opcode addr => simp [step, hr]

end Sys2Proof.Proofs
end

section
/-! What the port's record of a step says (20_memory.md R48, R51, R56), and the invariant that every step keeps (log entries 1
and 4). -/

namespace Sys2Proof.Proofs

open Machine Laws Safety

/-- A step's record began empty, so all that was appended to it is the record itself. -/
theorem replay_trace_of_accounts_beginStep {n : Nat} {s t : State} (h : Accounts n (beginStep s) t) :
    replay t.trace s.mem = some t.mem ∧ t.trace.length ≤ n := by
  obtain ⟨l, htrace, hlength, hreplay⟩ := h.record
  obtain rfl : t.trace = l := by simpa using htrace
  exact ⟨by simpa using hreplay, hlength⟩

/-- Settles O51: what a step accounts for, seen from the empty record it begins with. -/
theorem stepRecordReplaysTheMemory : Obligations.StepRecordReplaysTheMemory := by
  intro s t h
  obtain ⟨-, hacc, hpos⟩ := step_accounts h
  obtain ⟨hreplay, hle⟩ := replay_trace_of_accounts_beginStep hacc
  exact ⟨hreplay, hacc.history, hle, hpos⟩

/-- The whole past of the machine after a step: the past before it, then the step's own record. -/
theorem replay_past_of_step {mem0 : Memory} {s t : State} (h : step s = .next t)
    (hs : replay (s.history ++ s.trace) mem0 = some s.mem) : replay (t.history ++ t.trace) mem0 = some t.mem := by
  obtain ⟨hreplay, hhistory, -⟩ := stepRecordReplaysTheMemory s t h
  calc replay (t.history ++ t.trace) mem0
      = (replay (s.history ++ s.trace) mem0).bind (replay t.trace) := by rw [hhistory, replay_append]
    _ = replay t.trace s.mem := by rw [hs, Option.bind_some]
    _ = some t.mem := hreplay

/-- Settles O52, by the invariant's three parts: the step's record is replayed over canonical memory, no operation of a step
writes RUN, and the record continues the past. -/
theorem everyStepKeepsTheInvariant : Obligations.EveryStepKeepsTheInvariant := by
  intro mem0 s t hinv h
  obtain ⟨hrunning, hacc, -⟩ := step_accounts h
  exact {
    canonical := wf_replay hinv.canonical (replay_trace_of_accounts_beginStep hacc).1
    running := hacc.run.trans hrunning
    accounted := replay_past_of_step h hinv.accounted }

end Sys2Proof.Proofs
end

section
/-! The decoder and the encoder (30_encoding.md R60 to R68). Both are tied to the opcode map by the two lemmas of Laws/Fetch.lean,
`lookupOpcode_descriptor` and `lookupOpcode_sound`; the map itself is looked at once more, for the cells it leaves empty. -/

namespace Sys2Proof.Proofs

open Laws

/-! ## Decoding what was encoded -/

/-- An entry that makes the instruction decodes its operand bytes to it. -/
theorem decode_of_entryMakes {opcode : Byte} {i : Instr} {e : Entry} (he : lookupOpcode opcode = some e)
    (hmakes : EntryMakes i e) (rest : List Byte) : decode (opcode :: (operandBytes i ++ rest)) = .ok i := by
  cases e with
  | noOperand i' =>
    obtain ⟨rfl, -⟩ := hmakes
    simp [decode, he]
  | byteOperand make =>
    obtain ⟨v, rfl, hbytes⟩ := hmakes
    simp [decode, he, hbytes]
  | wordOperand make =>
    obtain ⟨v, rfl, hbytes⟩ := hmakes
    simp [decode, he, hbytes]

theorem decode_fetchedBytes_append (i : Instr) (rest : List Byte) : decode (fetchedBytes i ++ rest) = .ok i := by
  obtain ⟨e, he, hmakes⟩ := lookupOpcode_descriptor i
  exact decode_of_entryMakes he hmakes rest

/-- The bytes the encoder writes after the fetched ones: BRK's padding byte (R71). -/
def padding (i : Instr) : List Byte := if i.form.mnemonic = .brk then [0x00#8] else []

theorem encode_eq_append_padding (i : Instr) : encode i = fetchedBytes i ++ padding i := by
  unfold encode
  split
  case h_1 h => rw [padding, if_pos h]
  case h_2 h => rw [padding, if_neg h, List.append_nil]

/-- Settles O2: the encoding begins with the fetched bytes, and they decide what is decoded. -/
theorem decodeOfEncodeIsTheInstruction : Obligations.DecodeOfEncodeIsTheInstruction := by
  intro i rest
  rw [encode_eq_append_padding, List.append_assoc]
  exact decode_fetchedBytes_append i _

/-- Settles O1: each of the words is what the core fetches for its instruction. -/
theorem wordsOfTheOpcodeMapDecode : Obligations.WordsOfTheOpcodeMapDecode :=
  have h (i : Instr) : decode (fetchedBytes i) = .ok i := by simpa using decode_fetchedBytes_append i []
  ⟨h .tax, h .aslAcc, h (.ldaImm _), h (.staZp _), h (.adcZpX _), h (.ldxZpY _), h (.incAbs 0x1234#16),
    h (.andAbsX 0x02F0#16), h (.cmpAbsY 0x0201#16), h (.jmpInd 0x02FF#16), h (.eorIndX _), h (.staIndY _), h (.bne _),
    h .pha, h .brk⟩

/-! ## What decodes was encoded -/

/-- Settles O3, by what the entry at the first byte makes of the bytes after it. -/
theorem decodedBytesBeginWithTheEncoding : Obligations.DecodedBytesBeginWithTheEncoding := by
  intro bytes i h
  cases bytes with
  | nil => simp [decode] at h
  | cons opcode rest =>
    cases he : lookupOpcode opcode with
    | none => simp [decode, he] at h
    | some e =>
      have hsound := lookupOpcode_sound he
      match e, rest with
      | .noOperand i', rest =>
        obtain rfl : i' = i := by simpa [decode, he] using h
        exact ⟨rest, congrArg (· ++ rest) hsound.symm⟩
      | .byteOperand make, b0 :: rest =>
        obtain rfl : make b0 = i := by simpa [decode, he] using h
        exact ⟨rest, by simp [hsound b0]⟩
      | .wordOperand make, b0 :: b1 :: rest =>
        obtain rfl : make (mkWord b1 b0) = i := by simpa [decode, he] using h
        exact ⟨rest, by simp [hsound (mkWord b1 b0)]⟩
      | .byteOperand _, [] | .wordOperand _, [] | .wordOperand _, [_] => simp [decode, he] at h

/-! ## The undefined bytes -/

/-- R68's list is what R65's map leaves empty, in rising order. -/
theorem undefinedOpcodes_eq_filter :
    undefinedOpcodes = (List.range 256).filter fun n => (lookupOpcode (BitVec.ofNat 8 n)).isNone := by
  decide

theorem lookupOpcode_eq_none_iff {opcode : Byte} : lookupOpcode opcode = none ↔ opcode.toNat ∈ undefinedOpcodes := by
  simp [undefinedOpcodes_eq_filter, opcode.isLt]

/-- The decoder names an undefined byte exactly when the map has no entry for it. -/
theorem decode_eq_undefinedOpcode_iff {opcode : Byte} {rest : List Byte} :
    decode (opcode :: rest) = .error (.undefinedOpcode opcode) ↔ lookupOpcode opcode = none := by
  cases he : lookupOpcode opcode with
  | none => simp [decode, he]
  | some e =>
    match e, rest with
    | .noOperand _, _ | .byteOperand _, _ :: _ | .wordOperand _, _ :: _ :: _ | .byteOperand _, []
    | .wordOperand _, [] | .wordOperand _, [_] => simp [decode, he]

/-- Settles O4: the decoder refuses what the map leaves empty, and that is R68's list. -/
theorem decoderRefusesExactlyTheUndefinedOpcodes : Obligations.DecoderRefusesExactlyTheUndefinedOpcodes :=
  ⟨rfl, fun _ _ => decode_eq_undefinedOpcode_iff.trans lookupOpcode_eq_none_iff⟩

/-! ## Lengths -/

theorem length_operandBytes (i : Instr) : (operandBytes i).length = i.form.mode.operandBytes := by
  cases i <;> rfl

theorem length_fetchedBytes (i : Instr) : (fetchedBytes i).length = 1 + i.form.mode.operandBytes := by
  rw [fetchedBytes, List.length_cons, length_operandBytes, Nat.add_comm]

/-- Every constructor stands for a row of R66. -/
theorem wellFormed_eq_true (i : Instr) : i.wellFormed = true := by
  cases i <;> rfl

/-- BRK's mode has no operand byte (R71). -/
theorem operandBytes_of_brk {i : Instr} (h : i.form.mnemonic = .brk) : i.form.mode.operandBytes = 0 := by
  have hmode : i.form.mode ∈ i.form.mnemonic.modes := List.contains_iff_mem.1 (wellFormed_eq_true i)
  rw [h, Mnemonic.modes, List.mem_singleton] at hmode
  rw [hmode, Mode.operandBytes]

theorem mode_operandBytes_le (m : Mode) : m.operandBytes ≤ 2 := by
  cases m <;> decide

theorem length_cases (i : Instr) : i.length = 1 ∨ i.length = 2 ∨ i.length = 3 := by
  have hle := mode_operandBytes_le i.form.mode
  unfold Instr.length
  split <;> omega

theorem length_encode (i : Instr) : (encode i).length = i.length := by
  rw [encode_eq_append_padding, List.length_append, length_fetchedBytes]
  unfold Instr.length
  split
  case h_1 h => rw [padding, if_pos h, operandBytes_of_brk h, List.length_singleton]
  case h_2 h => rw [padding, if_neg h, List.length_nil, Nat.add_zero]

/-- Settles O5: the encoding is the fetched bytes and, for BRK, the padding byte that its length counts. -/
theorem encodingLengthsFollowTheFormats : Obligations.EncodingLengthsFollowTheFormats := fun i =>
  ⟨length_encode i, wellFormed_eq_true i, length_fetchedBytes i, length_cases i⟩

end Sys2Proof.Proofs
end

section
/-! The step as the fetch of one instruction's bytes and then its meaning (30_encoding.md R69, R70). -/

namespace Sys2Proof.Proofs

open Machine Laws Safety

/-! ## Fetching -/

theorem fetch8_eq (s : State) :
    fetch8 s = (s.mem.read s.pc,
      { s with pc := s.pc + 1#16, trace := s.trace ++ [.read s.pc (s.mem.read s.pc)] }) := rfl

/-- Settles O12: PC's step as a number is the addition of words. -/
theorem fetchReadsTheByteAtPcAndAdvances : Obligations.FetchReadsTheByteAtPcAndAdvances := fun s =>
  ⟨fetch8_eq s, by rw [fetch8_pc, BitVec.toNat_add]; rfl⟩

/-- The state after a fetch of these bytes: PC past them, their reads recorded in order. -/
def afterFetch (bytes : List Byte) (s : State) : State :=
  { s with pc := s.pc + BitVec.ofNat 16 bytes.length, trace := s.trace ++ fetchReads s.pc bytes }

@[simp] theorem afterFetch_nil (s : State) : afterFetch [] s = s := by
  simp [afterFetch, fetchReads]

/-- One byte fetched, then the others from the next address. -/
theorem afterFetch_cons {b : Byte} {s : State} (h : s.mem.read s.pc = b) (bytes : List Byte) :
    afterFetch (b :: bytes) s = afterFetch bytes (fetch8 s).2 := by
  have hpc : s.pc + BitVec.ofNat 16 (bytes.length + 1) = s.pc + 1#16 + BitVec.ofNat 16 bytes.length := by
    rw [Nat.add_comm, BitVec.ofNat_add, BitVec.add_assoc]
  simp [afterFetch, fetchReads, fetch8_eq, h, hpc]

/-- An entry that makes the instruction fetches its operand bytes from PC. -/
theorem fetchOperand_of_bytesAt {i : Instr} {e : Entry} {s : State} (hmakes : EntryMakes i e)
    (hbytes : BytesAt s.mem s.pc (operandBytes i)) : fetchOperand e s = (i, afterFetch (operandBytes i) s) := by
  cases e with
  | noOperand i' =>
    obtain ⟨rfl, hnone⟩ := hmakes
    simp [fetchOperand, hnone]
  | byteOperand make =>
    obtain ⟨v, rfl, hone⟩ := hmakes
    rw [hone] at hbytes ⊢
    obtain ⟨hv, -⟩ := hbytes
    rw [afterFetch_cons hv, afterFetch_nil, fetchOperand, fetch8_val, hv]
  | wordOperand make =>
    obtain ⟨v, rfl, htwo⟩ := hmakes
    rw [htwo] at hbytes ⊢
    obtain ⟨hlo, hhi, -⟩ := hbytes
    have hhi' : (fetch8 s).2.mem.read (fetch8 s).2.pc = hiByte v := hhi
    rw [afterFetch_cons hlo, afterFetch_cons hhi', afterFetch_nil, fetchOperand, fetch8_val, fetch8_val, hlo, hhi',
      mkWord_hiByte_loByte]

/-- The fetch gives the instruction whose bytes lie at PC. -/
theorem fetchInstr_of_bytesAt {i : Instr} {s : State} (hbytes : BytesAt s.mem s.pc (fetchedBytes i)) :
    fetchInstr s = .ok (i, afterFetch (fetchedBytes i) s) := by
  obtain ⟨hopcode, hoperand⟩ := hbytes
  obtain ⟨e, he, hmakes⟩ := lookupOpcode_descriptor i
  have hfetch : fetchOperand e (fetch8 s).2 = (i, afterFetch (operandBytes i) (fetch8 s).2) :=
    fetchOperand_of_bytesAt hmakes hoperand
  rw [fetchedBytes, afterFetch_cons hopcode, ← hfetch]
  simp [fetchInstr, hopcode, he]

/-- Settles O6: what a running step fetches, after the earlier record went into the history. -/
theorem stepRunsTheDecodedInstruction : Obligations.StepRunsTheDecodedInstruction := by
  intro i s hrun hbytes
  rw [step_of_running hrun, fetchInstr_of_bytesAt (s := beginStep s) hbytes]
  rfl

/-! ## Completing -/

theorem accounts_fetchOperand (e : Entry) (s : State) : Accounts 2 s (fetchOperand e s).2 := by
  cases e with
  | noOperand i => exact (Accounts.refl s).mono (by decide)
  | byteOperand make => exact (accounts_fetch8 s).mono (by decide)
  | wordOperand make => exact (accounts_fetch8 s).trans (accounts_fetch8 _)

/-- A running step on a defined opcode byte completes, and all but the opcode's read comes after it in the record. -/
theorem step_of_lookupOpcode_eq_some {s : State} {e : Entry} (hrun : s.run = .running)
    (he : lookupOpcode (s.mem.read s.pc) = some e) :
    ∃ t n, step s = .next t ∧ Accounts n (fetch8 (beginStep s)).2 t := by
  have hfetch : fetchInstr (beginStep s) = .ok (fetchOperand e (fetch8 (beginStep s)).2) := by
    simp [fetchInstr, he]
  obtain ⟨t, ht, hacc⟩ := exec_accounts (fetchOperand e (fetch8 (beginStep s)).2).1 _
  refine ⟨t, _, ?_, (accounts_fetchOperand e _).trans hacc⟩
  rw [step_of_running hrun, hfetch]
  exact ht

/-- Settles O8: the map has an entry for the byte, and no operation after the opcode fetch writes RUN or the history or
takes a read back. -/
theorem runningStepCompletesUnlessTheOpcodeIsUndefined :
    Obligations.RunningStepCompletesUnlessTheOpcodeIsUndefined := by
  intro s hrun hdefined
  obtain ⟨e, he⟩ := Option.ne_none_iff_exists'.1 (mt lookupOpcode_eq_none_iff.1 hdefined)
  obtain ⟨t, n, hstep, hacc⟩ := step_of_lookupOpcode_eq_some hrun he
  obtain ⟨later, htrace, -⟩ := hacc.record
  exact ⟨t, hstep, hacc.run.trans hrun, hacc.history, by simp [htrace]⟩

end Sys2Proof.Proofs
end

section
/-! Effective addresses (40_addressing_modes.md R84 to R94) as numbers: each mode's address is an addition of bytes or words or a
pointer read in two steps, and a page cross is a difference of two high bytes. -/

namespace Sys2Proof.Proofs

open Machine Laws

/-! ## Page crosses and indexing -/

/-- A page is the quotient by 256 (R94). -/
theorem pageCrossed_iff (old new : Word) : pageCrossed old new = true ↔ new.toNat / 256 ≠ old.toNat / 256 := by
  simp [pageCrossed, ← BitVec.toNat_inj]

@[simp] theorem indexed_ea_toNat (base : Word) (index : Byte) :
    (indexed base index).ea.toNat = (base.toNat + index.toNat) % 65536 := by
  simp [indexed]

/-- The addition changes the page exactly when the low bytes carry; at the top of memory the sum is in page zero. -/
theorem indexed_crossed_iff (base : Word) (index : Byte) :
    (indexed base index).crossed = true ↔ 256 ≤ base.toNat % 256 + index.toNat := by
  have hbase := base.isLt
  have hindex := index.isLt
  calc (indexed base index).crossed = true
      ↔ (indexed base index).ea.toNat / 256 ≠ base.toNat / 256 := pageCrossed_iff _ _
    _ ↔ 256 ≤ base.toNat % 256 + index.toNat := by rw [indexed_ea_toNat]; omega

/-- Settles O14: both indexed modes are `indexed` on their register, and the state is the one they were given. -/
theorem absoluteModesAddTheIndexAndReportPageCrosses : Obligations.AbsoluteModesAddTheIndexAndReportPageCrosses := by
  intro addr s
  have hindexed (index : Byte) := And.intro (indexed_ea_toNat addr index) (indexed_crossed_iff addr index)
  simp only [List.forall_mem_cons]
  exact ⟨rfl, ⟨rfl, hindexed s.x⟩, ⟨rfl, hindexed s.y⟩, List.forall_mem_nil _⟩

/-! ## Pointers -/

/-- Two reads in a row, the second from the state after the first, as one update. -/
theorem memRead_memRead_snd (p q : Word) (s : State) :
    (memRead q (memRead p s).2).2 =
      { s with trace := s.trace ++ [.read p (s.mem.read p), .read q (s.mem.read q)] } := by
  simp [memRead_eq]

/-- The page-zero address of a byte. -/
theorem zext16_eq_ofNat (b : Byte) : zext16 b = BitVec.ofNat 16 b.toNat :=
  (BitVec.ofNat_toNat 16 b).symm

/-- The page-zero address after that of a byte: 0x00FF is followed by 0x0000. -/
theorem zext16_add_one_eq_ofNat (b : Byte) : zext16 (b + 1#8) = BitVec.ofNat 16 ((b.toNat + 1) % 256) := by
  simp [zext16_eq_ofNat]

/-- The address after a word in the word's own page (R90). -/
theorem mkWord_hiByte_loByte_add_one (w : Word) :
    mkWord (hiByte w) (loByte w + 1#8) = BitVec.ofNat 16 (w.toNat / 256 * 256 + (w.toNat % 256 + 1) % 256) := by
  simp [mkWord_eq_ofNat]

/-- Settles O16: the two addresses of the pointer are page-zero addresses of bytes; the low byte of the pointer's word is the
byte read first, so that is the byte whose sum with Y carries. -/
theorem pageZeroPointersWrapInPageZero : Obligations.PageZeroPointersWrapInPageZero := by
  intro zp s
  have hp : BitVec.ofNat 16 ((zp.toNat + s.x.toNat) % 256) = zext16 (zp + s.x) := by
    rw [zext16_eq_ofNat, BitVec.toNat_add]
  have hq : BitVec.ofNat 16 ((zp.toNat + s.x.toNat + 1) % 256) = zext16 (zp + s.x + 1#8) := by
    rw [zext16_add_one_eq_ofNat, BitVec.toNat_add, Nat.mod_add_mod]
  rw [hp, hq, ← zext16_eq_ofNat, ← zext16_add_one_eq_ofNat]
  refine ⟨⟨memRead_memRead_snd _ _ s, rfl, mkWord_toNat _ _⟩, memRead_memRead_snd _ _ s, ?_⟩
  set lo := s.mem.read (zext16 zp)
  set hi := s.mem.read (zext16 (zp + 1#8))
  have hlow : (mkWord hi lo).toNat % 256 = lo.toNat := by rw [← loByte_toNat, loByte_mkWord]
  constructor
  · rw [← mkWord_toNat]
    exact indexed_ea_toNat _ _
  · rw [← hlow]
    exact indexed_crossed_iff _ _

/-- Settles O15: the second read is at the next address of the pointer's page. -/
theorem indirectPointerWrapsInItsPage : Obligations.IndirectPointerWrapsInItsPage := by
  intro ptr s
  rw [← mkWord_hiByte_loByte_add_one]
  exact ⟨memRead_memRead_snd _ _ s, rfl, mkWord_toNat _ _⟩

/-! ## Page zero -/

/-- Settles O13: each address is that of a byte, so it is below 256. -/
theorem zeroPageModesStayInPageZero : Obligations.ZeroPageModesStayInPageZero := by
  intro zp s
  simp only [List.forall_mem_cons]
  exact ⟨zext16_toNat zp, zext16_toNat (zp + s.x), zext16_toNat (zp + s.y),
    ⟨rfl, rfl⟩, ⟨rfl, rfl⟩, ⟨rfl, rfl⟩, List.forall_mem_nil _⟩

/-! ## Branch targets -/

/-- Settles O17: the displacement is extended by 0xFF00 from 128 on, which is its signed value modulo 65536. -/
theorem relativeTargetIsSignedFromPcAfterOperand : Obligations.RelativeTargetIsSignedFromPcAfterOperand := by
  intro disp s
  refine ⟨?_, pageCrossed_iff s.pc _⟩
  have hsum : (relativeTarget disp s).ea.toNat = (s.pc.toNat + (sext16 disp).toNat) % 65536 := BitVec.toNat_add _ _
  rw [hsum, sext16_toNat]
  split <;> omega

end Sys2Proof.Proofs
end

section
/-! The shape of every rule that reads an operand byte and of every rule that stores one (30_encoding.md R70;
40_addressing_modes.md R95, R96), and the statement shapes of Safety.lean that follow from it. -/

namespace Sys2Proof.Proofs

open Machine Laws Safety

variable {i : Instr} {mode : MemMode} {base : Nat}

/-! ## Reading -/

/-- The rule loads its operand and counts its cycles; what it does with the byte is `result`. -/
def ReadsOperand (rule : Descriptor → Operand → State → State) (result : Byte → State → State) : Prop :=
  ∀ d op s, rule d op s = result (loadOperand op s).1 (complete d (extraForOperand d op) (loadOperand op s).2)

section
variable {rule : Descriptor → Operand → State → State} {result : Byte → State → State}

theorem ReadsOperand.imm (h : ReadsOperand rule result) (d : Descriptor) (imm : Byte) (s : State) :
    rule d (.imm imm) s = result imm { s with cyc := s.cyc + d.baseCycles } := h d (.imm imm) s

theorem ReadsOperand.addr (h : ReadsOperand rule result) (d : Descriptor) (p : Address) (s : State) :
    rule d (.addr p) s = result (s.mem.read p.ea) { s with
      trace := s.trace ++ [.read p.ea (s.mem.read p.ea)]
      cyc := s.cyc + (d.baseCycles + if d.pageCrossPenalty && p.crossed then 1 else 0) } := h d (.addr p) s

/-- A memory form of the rule: resolving the mode moves nothing but the record. -/
theorem ReadsOperand.reads {penalty : Bool} (h : ReadsOperand rule result) (hline : (tableLine i).2 = (base, penalty))
    (hexec : ∀ s, exec i s = .next (onOperand mode (rule (descriptor i)) s)) : Reads base penalty result i mode := by
  intro s
  simp only [hexec, onOperand, h.addr, descriptor, hline]
  rw [resolve_snd]

end

/-! ## Storing -/

/-- The rule writes `value` of the state to its address, and the record does not influence that byte. -/
structure StoresByte (rule : Descriptor → Address → State → State) (value : State → Byte) : Prop where
  rule_eq : ∀ d p s, rule d p s = complete d 0 (memWrite p.ea (value s) s)
  value_setTrace : ∀ s trace, value { s with trace := trace } = value s

/-- A form of the rule: one byte is written where the mode resolves to. -/
theorem StoresByte.stores {rule : Descriptor → Address → State → State} {value : State → Byte}
    (h : StoresByte rule value) (hline : (tableLine i).2.1 = base)
    (hexec : ∀ s, exec i s = .next (onAddress mode (rule (descriptor i)) s)) : Stores base value i mode := by
  intro s
  refine ⟨_, ?_, bytesChanged_write s.mem _ _⟩
  rw [hexec, onAddress, h.rule_eq, resolve_snd, h.value_setTrace, ← hline]
  rfl

end Sys2Proof.Proofs
end

section
/-! Loads, stores and transfers (41_load_store_transfer.md R100 to R111). -/

namespace Sys2Proof.Proofs

open Machine Laws Safety

/-! ## Loads -/

theorem readsOperand_lda : ReadsOperand lda fun m s => setNZ m { s with a := m } := fun _ _ _ => rfl

theorem readsOperand_ldx : ReadsOperand ldx fun m s => setNZ m { s with x := m } := fun _ _ _ => rfl

theorem readsOperand_ldy : ReadsOperand ldy fun m s => setNZ m { s with y := m } := fun _ _ _ => rfl

/-- Settles O19: one rule on its operand byte, in the Immediate form and in the seven memory forms. -/
theorem ldaLoadsAAndSetsNZ : Obligations.LdaLoadsAAndSetsNZ := by
  have h := readsOperand_lda
  refine ⟨fun imm => ⟨rfl, fun s => congrArg Host.Outcome.next (h.imm _ imm s)⟩, ?_, ?_, ?_, ?_, ?_, ?_, ?_⟩ <;>
    exact fun _ => ⟨rfl, h.reads rfl fun _ => rfl⟩

/-- Settles O20: the same shape, with X and Y loaded. -/
theorem ldxLdyLoadTheIndexAndSetNZ : Obligations.LdxLdyLoadTheIndexAndSetNZ := by
  constructor
  · have h := readsOperand_ldx
    refine ⟨fun imm => ⟨rfl, fun s => congrArg Host.Outcome.next (h.imm _ imm s)⟩, ?_, ?_, ?_, ?_⟩ <;>
      exact fun _ => ⟨rfl, h.reads rfl fun _ => rfl⟩
  · have h := readsOperand_ldy
    refine ⟨fun imm => ⟨rfl, fun s => congrArg Host.Outcome.next (h.imm _ imm s)⟩, ?_, ?_, ?_, ?_⟩ <;>
      exact fun _ => ⟨rfl, h.reads rfl fun _ => rfl⟩

/-! ## Stores -/

theorem storesByte_sta : StoresByte sta State.a := ⟨fun _ _ _ => rfl, fun _ _ => rfl⟩

theorem storesByte_stx : StoresByte stx State.x := ⟨fun _ _ _ => rfl, fun _ _ => rfl⟩

theorem storesByte_sty : StoresByte sty State.y := ⟨fun _ _ _ => rfl, fun _ _ => rfl⟩

/-- Settles O21: each rule writes its register where the mode resolves to. -/
theorem storesWriteOneByteAndNothingElse : Obligations.StoresWriteOneByteAndNothingElse := by
  refine ⟨?_, ?_, ?_⟩
  · refine ⟨?_, ?_, ?_, ?_, ?_, ?_, ?_⟩ <;> exact fun _ => ⟨rfl, storesByte_sta.stores rfl fun _ => rfl⟩
  · refine ⟨?_, ?_, ?_⟩ <;> exact fun _ => ⟨rfl, storesByte_stx.stores rfl fun _ => rfl⟩
  · refine ⟨?_, ?_, ?_⟩ <;> exact fun _ => ⟨rfl, storesByte_sty.stores rfl fun _ => rfl⟩

/-! ## Transfers -/

/-- Settles O22: a transfer's meaning is its update of the registers, completed without an extra cycle. -/
theorem transfersCopyAndSetNZExceptTxs : Obligations.TransfersCopyAndSetNZExceptTxs := by
  refine ⟨?_, ?_, ?_, ?_, ?_, ?_⟩ <;>
    exact ⟨rfl, fun _ => congrArg Host.Outcome.next (complete_eq _ _ _)⟩

end Sys2Proof.Proofs
end

section
/-! The binary adder (42_arithmetic.md R120), and ADC and SBC on top of it (R123, R124). -/

namespace Sys2Proof.Proofs

open Machine Safety

variable (a m : Byte) (c : Bool)

/-! ## The sum -/

/-- A byte's sign bit is set in the upper half of its range. -/
theorem getLsbD_seven (b : Byte) : b.getLsbD 7 = decide (128 ≤ b.toNat) := b.msb_eq_decide

/-- Two's complement, with the cases cut where the sign bit changes. -/
theorem toInt_eq_ite (b : Byte) : b.toInt = if 128 ≤ b.toNat then (b.toNat : Int) - 256 else b.toNat := by
  rw [BitVec.toInt_eq_toNat_cond]
  split <;> split <;> omega

theorem addBinary_r_toNat : (addBinary a m c).r.toNat = (a.toNat + m.toNat + c.toNat) % 256 :=
  BitVec.toNat_ofNat _ _

theorem addBinary_r : (addBinary a m c).r = BitVec.ofNat 8 ((a.toNat + m.toNat + c.toNat) % 256) := by
  rw [← addBinary_r_toNat, BitVec.ofNat_toNat, BitVec.setWidth_eq]

theorem addBinary_carry : (addBinary a m c).carry = decide (256 ≤ a.toNat + m.toNat + c.toNat) := rfl

theorem addBinary_overflow : (addBinary a m c).overflow =
    decide (a.getLsbD 7 = m.getLsbD 7 ∧ (addBinary a m c).r.getLsbD 7 ≠ a.getLsbD 7) := by
  rw [Bool.eq_iff_iff, decide_eq_true_iff]
  simp [addBinary]

/-- R120's second form: both addends differ from the result in the sign bit. -/
theorem addBinary_overflow_eq_getLsbD : (addBinary a m c).overflow =
    ((a ^^^ (addBinary a m c).r) &&& (m ^^^ (addBinary a m c).r)).getLsbD 7 := by
  rw [addBinary_overflow, BitVec.getLsbD_and, BitVec.getLsbD_xor, BitVec.getLsbD_xor]
  cases a.getLsbD 7 <;> cases m.getLsbD 7 <;> cases (addBinary a m c).r.getLsbD 7 <;> rfl

/-- R120's third form: the signed sum does not fit a byte. -/
theorem addBinary_overflow_iff_signed : (addBinary a m c).overflow = true ↔
    a.toInt + m.toInt + (c.toNat : Int) < -128 ∨ 127 < a.toInt + m.toInt + (c.toNat : Int) := by
  have ha := a.isLt
  have hm := m.isLt
  have hc := c.toNat_le
  simp only [addBinary_overflow, decide_eq_true_iff, getLsbD_seven, toInt_eq_ite, addBinary_r_toNat, ne_eq,
    decide_eq_decide]
  split <;> split <;> omega

/-- Settles O25: each field of the sum, and the overflow in the two other forms. -/
theorem addBinaryCarryAndOverflowMeanWhatTheySay : Obligations.AddBinaryCarryAndOverflowMeanWhatTheySay := by
  intro a m c
  have hoverflow := addBinary_overflow a m c
  exact ⟨addBinary_r_toNat a m c, decide_eq_true_iff, by rw [hoverflow, decide_eq_true_iff],
    addBinary_overflow_eq_getLsbD a m c, addBinary_overflow_iff_signed a m c, rfl⟩

/-! ## The difference: the sum with the complement, where the carry in means "no borrow" (R124) -/

theorem toNat_xor_ones (m : Byte) : (m ^^^ 0xFF#8).toNat = 255 - m.toNat :=
  calc (m ^^^ 0xFF#8).toNat = (~~~m).toNat := congrArg BitVec.toNat (BitVec.xor_allOnes (x := m))
    _ = 255 - m.toNat := BitVec.toNat_not

theorem addBinary_complement_r : (addBinary a (m ^^^ 0xFF#8) c).r =
    BitVec.ofNat 8 ((256 + a.toNat - m.toNat - (1 - c.toNat)) % 256) := by
  have hm := m.isLt
  have hc := c.toNat_le
  rw [addBinary_r, toNat_xor_ones]
  congr 2
  omega

theorem addBinary_complement_carry :
    (addBinary a (m ^^^ 0xFF#8) c).carry = decide (m.toNat + (1 - c.toNat) ≤ a.toNat) := by
  have hm := m.isLt
  have hc := c.toNat_le
  rw [addBinary_carry, toNat_xor_ones, decide_eq_decide]
  omega

/-- The complement turns equal sign bits into different ones. -/
theorem addBinary_complement_overflow : (addBinary a (m ^^^ 0xFF#8) c).overflow =
    decide (a.getLsbD 7 ≠ m.getLsbD 7 ∧ (addBinary a (m ^^^ 0xFF#8) c).r.getLsbD 7 ≠ a.getLsbD 7) := by
  have hflip : (m ^^^ 0xFF#8).getLsbD 7 = !m.getLsbD 7 := by rw [BitVec.getLsbD_xor]; exact Bool.xor_true _
  rw [addBinary_overflow, hflip, decide_eq_decide, Bool.eq_not]

/-! ## The instructions -/

/-- Loading the operand moves no register and no flag, so the adders may read them after it. -/
theorem readsOperand_adc : ReadsOperand adc fun m s =>
    let bin := addBinary s.a m s.c
    let dec := addDecimal s.a m s.c
    let r := if s.d then dec.1 else bin.r
    setNZ r { s with a := r, c := if s.d then dec.2 else bin.carry, v := bin.overflow } := by
  intro _ op _
  cases op <;> rfl

theorem readsOperand_sbc : ReadsOperand sbc fun m s =>
    let bin := addBinary s.a (m ^^^ 0xFF#8) s.c
    let r := if s.d then subDecimal s.a m s.c else bin.r
    setNZ r { s with a := r, c := bin.carry, v := bin.overflow } := by
  intro _ op _
  cases op <;> rfl

/-- Settles O23: one rule on its operand byte, with the fields of the binary sum written out. -/
theorem adcAddsWithCarryInBothModes : Obligations.AdcAddsWithCarryInBothModes := by
  have h := readsOperand_adc
  simp only [addBinary_carry, addBinary_overflow, addBinary_r] at h
  refine ⟨fun imm => ⟨rfl, fun s => congrArg Host.Outcome.next (h.imm _ imm s)⟩, ?_, ?_, ?_, ?_, ?_, ?_, ?_⟩ <;>
    exact fun _ => ⟨rfl, h.reads rfl fun _ => rfl⟩

/-- Settles O24: the same shape, with the fields of the binary difference. -/
theorem sbcSubtractsWithBorrowInBothModes : Obligations.SbcSubtractsWithBorrowInBothModes := by
  have h := readsOperand_sbc
  simp only [addBinary_complement_carry, addBinary_complement_overflow, addBinary_complement_r] at h
  refine ⟨fun imm => ⟨rfl, fun s => congrArg Host.Outcome.next (h.imm _ imm s)⟩, ?_, ?_, ?_, ?_, ?_, ?_, ?_⟩ <;>
    exact fun _ => ⟨rfl, h.reads rfl fun _ => rfl⟩

end Sys2Proof.Proofs
end

section
/-! The BCD adder and subtractor on valid digits (42_arithmetic.md R121, R122), as arithmetic in two decimal columns: a column
keeps its sum modulo 10 and hands the quotient, which is the carry or the negative of the borrow, to the next. -/

namespace Sys2Proof.Proofs

open Machine Safety

variable {a m : Byte}

/-- The byte whose nibbles are what two decimal columns keep. -/
theorem bcd_of_columns {b : Byte} {tens units : Int} (hb : (b.toNat : Int) = 16 * (tens % 10) + units % 10) :
    ValidBcd b ∧ (bcdValue b : Int) = (10 * tens + units % 10) % 100 := by
  unfold ValidBcd bcdValue highNibble lowNibble
  omega

/-! ## Addition -/

/-- The units column of `AddDecimal`. -/
def unitsSum (a m : Byte) (c : Bool) : Nat := lowNibble a + lowNibble m + c.toNat

/-- The tens column of `AddDecimal`, with the carry out of the units. -/
def tensSum (a m : Byte) (c : Bool) : Nat := highNibble a + highNibble m + unitsSum a m c / 10

/-- The columns add up to the decimal sum. -/
theorem columns_add (a m : Byte) (c : Bool) :
    10 * tensSum a m c + unitsSum a m c % 10 = bcdValue a + bcdValue m + c.toNat := by
  unfold tensSum unitsSum bcdValue
  omega

/-- The two adjustments of the adder are the carries of the two columns. -/
theorem addDecimal_of_validBcd (c : Bool) (ha : ValidBcd a) (hm : ValidBcd m) :
    (addDecimal a m c).1.toNat = 16 * (tensSum a m c % 10) + unitsSum a m c % 10 ∧
      ((addDecimal a m c).2 = true ↔ 10 ≤ tensSum a m c) := by
  obtain ⟨hatens, haunits⟩ := ha
  obtain ⟨hmtens, hmunits⟩ := hm
  have hc := c.toNat_le
  simp only [addDecimal, tensSum, unitsSum, BitVec.toNat_ofNat, decide_eq_true_iff]
  split <;> split <;> omega

/-- Settles O26: the byte holds the two columns, and the carry is that of the tens. -/
theorem addDecimalIsDecimalAdditionOnValidBcd : Obligations.AddDecimalIsDecimalAdditionOnValidBcd := by
  intro a m c ha hm
  have hsum := columns_add a m c
  obtain ⟨hbyte, hcarry⟩ := addDecimal_of_validBcd c ha hm
  obtain ⟨hvalid, hvalue⟩ := bcd_of_columns (tens := tensSum a m c) (units := unitsSum a m c) (mod_cast hbyte)
  exact ⟨hvalid, by omega, hcarry.trans (by omega)⟩

/-! ## Subtraction -/

/-- The units column of `SubDecimal`. -/
def unitsDiff (a m : Byte) (c : Bool) : Int := (lowNibble a : Int) - lowNibble m + c.toNat - 1

/-- The tens column of `SubDecimal`, less the borrow of the units. -/
def tensDiff (a m : Byte) (c : Bool) : Int := (highNibble a : Int) - highNibble m + unitsDiff a m c / 10

/-- The columns add up to the decimal difference. -/
theorem columns_sub (a m : Byte) (c : Bool) :
    10 * tensDiff a m c + unitsDiff a m c % 10 = (bcdValue a : Int) - bcdValue m - (1 - (c.toNat : Int)) := by
  unfold tensDiff unitsDiff bcdValue
  omega

theorem toNat_ofInt_byte (x : Int) : ((BitVec.ofInt 8 x).toNat : Int) = x % 256 := by
  rw [BitVec.toNat_ofInt]
  exact Int.toNat_of_nonneg (Int.emod_nonneg x (by decide))

/-- The two adjustments of the subtractor are the borrows of the two columns. -/
theorem subDecimal_of_validBcd (c : Bool) (ha : ValidBcd a) (hm : ValidBcd m) :
    ((subDecimal a m c).toNat : Int) = 16 * (tensDiff a m c % 10) + unitsDiff a m c % 10 := by
  obtain ⟨hatens, haunits⟩ := ha
  obtain ⟨hmtens, hmunits⟩ := hm
  have hc := c.toNat_le
  simp only [subDecimal, tensDiff, unitsDiff, toNat_ofInt_byte]
  split <;> split <;> omega

/-- Packed valid digits and the numbers they stand for are in the same order, also after one is added. -/
theorem toNat_add_le_iff_of_validBcd {k : Nat} (hk : k ≤ 1) (ha : ValidBcd a) (hm : ValidBcd m) :
    m.toNat + k ≤ a.toNat ↔ bcdValue m + k ≤ bcdValue a := by
  unfold ValidBcd highNibble lowNibble at ha hm
  unfold bcdValue highNibble lowNibble
  omega

/-- Settles O27: the byte holds the two columns, and the binary borrow is the decimal one. -/
theorem subDecimalIsDecimalSubtractionOnValidBcd : Obligations.SubDecimalIsDecimalSubtractionOnValidBcd := by
  intro a m c ha hm
  obtain ⟨hvalid, hvalue⟩ := bcd_of_columns (subDecimal_of_validBcd c ha hm)
  refine ⟨hvalid, by rw [hvalue, columns_sub], ?_⟩
  rw [addBinary_complement_carry, decide_eq_true_iff]
  exact toNat_add_le_iff_of_validBcd (Nat.sub_le 1 _) ha hm

end Sys2Proof.Proofs
end

section
/-! The shape of every rule that reads a byte, changes it and writes it back (30_encoding.md R70; 40_addressing_modes.md R96), and
the statement shape of Safety.lean that follows from it. -/

namespace Sys2Proof.Proofs

open Machine Laws Safety

/-- At an address the rule replaces the byte by `new` of it and sets `flags`; it appends a read and a write to the record, which
influences neither. -/
def ChangesByte (rule : Descriptor → Place → State → State) (new : Byte → State → Byte) (flags : Byte → State → State) :
    Prop :=
  ∀ d p s trace,
    let m := s.mem.read p.ea
    rule d (.addr p) { s with trace := trace } = { flags m s with
      mem := s.mem.write p.ea (new m s)
      trace := trace ++ [.read p.ea m, .write p.ea (new m s)]
      cyc := s.cyc + d.baseCycles }

variable {i : Instr} {mode : MemMode} {base : Nat} {rule : Descriptor → Place → State → State}
  {new : Byte → State → Byte} {flags : Byte → State → State}

/-- A memory form of the rule: resolving the mode moves nothing but the record. -/
theorem ChangesByte.changes (h : ChangesByte rule new flags) (hline : (tableLine i).2.1 = base)
    (hexec : ∀ s, exec i s = .next (onPlace mode (rule (descriptor i)) s)) : Changes base new flags i mode := by
  intro s
  refine ⟨_, ?_, bytesChanged_write s.mem _ _⟩
  rw [hexec, onPlace, resolve_snd, h, ← hline]
  rfl

end Sys2Proof.Proofs
end

section
/-! Increments and decrements (43_incdec.md R130 to R135). -/

namespace Sys2Proof.Proofs

open Machine Laws Safety

theorem add_one_eq_ofNat (b : Byte) : b + 1#8 = BitVec.ofNat 8 ((b.toNat + 1) % 256) := by
  apply BitVec.eq_of_toNat_eq
  simp

theorem sub_one_eq_ofNat (b : Byte) : b - 1#8 = BitVec.ofNat 8 ((b.toNat + 255) % 256) := by
  apply BitVec.eq_of_toNat_eq
  simp [BitVec.toNat_sub, Nat.add_comm]

/-! ## In memory -/

/-- The rule of INC and DEC, whose load and store each append one transaction. -/
theorem changesByte_changeMemory (f : Byte → Byte) :
    ChangesByte (changeMemory f) (fun m _ => f m) (fun m => setNZ (f m)) := by
  intro d p s trace
  dsimp only
  rw [List.append_cons]
  rfl

theorem changesByte_inc : ChangesByte inc (fun m _ => m + 1#8) (fun m => setNZ (m + 1#8)) :=
  changesByte_changeMemory fun m => m + 1#8

theorem changesByte_dec : ChangesByte dec (fun m _ => m - 1#8) (fun m => setNZ (m - 1#8)) :=
  changesByte_changeMemory fun m => m - 1#8

/-- Settles O30: each rule on its byte, with the step written as a number modulo 256. -/
theorem incDecChangeTheByteInMemory : Obligations.IncDecChangeTheByteInMemory := by
  constructor
  · have h := changesByte_inc
    simp only [add_one_eq_ofNat] at h
    refine ⟨?_, ?_, ?_, ?_⟩ <;> exact fun _ => ⟨rfl, h.changes rfl fun _ => rfl⟩
  · have h := changesByte_dec
    simp only [sub_one_eq_ofNat] at h
    refine ⟨?_, ?_, ?_, ?_⟩ <;> exact fun _ => ⟨rfl, h.changes rfl fun _ => rfl⟩

/-! ## In an index register -/

/-- Settles O31: an index step's meaning is its update of the register and the flags, completed without an extra cycle. -/
theorem indexStepsWrapAndSetNZ : Obligations.IndexStepsWrapAndSetNZ := by
  unfold Obligations.IndexStepsWrapAndSetNZ
  simp only [← add_one_eq_ofNat, ← sub_one_eq_ofNat]
  refine ⟨?_, ?_, ?_, ?_⟩ <;>
    exact ⟨rfl, fun _ => congrArg Host.Outcome.next (complete_eq _ _ _)⟩

end Sys2Proof.Proofs
end

section
/-! Shifts and rotates (44_shift_rotate.md R140 to R144): one rule, in A and in memory, for a function of the old C and the byte. -/

namespace Sys2Proof.Proofs

open Machine Laws Safety

/-! ## The rule of the four (R140) -/

/-- The rule of a shift or rotate whose new byte and carry are `f` of the old carry and the old byte. -/
def ShiftsByte (rule : Descriptor → Place → State → State) (f : Bool → Byte → Byte × Bool) : Prop :=
  ∀ d place s, rule d place s = shiftPlace (f s.c) d place s

section
variable {rule : Descriptor → Place → State → State} {f : Bool → Byte → Byte × Bool}

/-- The Accumulator form: no transaction, and A is both the old byte and the new one. -/
theorem ShiftsByte.acc (h : ShiftsByte rule f) (d : Descriptor) (s : State) :
    rule d .acc s = setNZ (f s.c s.a).1
      { s with a := (f s.c s.a).1, c := (f s.c s.a).2, cyc := s.cyc + d.baseCycles } := h d .acc s

/-- At an address, the load and the store each append one transaction. -/
theorem ShiftsByte.changesByte (h : ShiftsByte rule f) :
    ChangesByte rule (fun m s => (f s.c m).1) (fun m s => setNZ (f s.c m).1 { s with c := (f s.c m).2 }) := by
  intro d p s trace
  dsimp only
  rw [h, List.append_cons]
  rfl

end

/-! ## One bit to the left or to the right, as arithmetic on the byte's number -/

theorem shiftLeft_one_eq_ofNat (m : Byte) : m <<< 1 = BitVec.ofNat 8 (m.toNat * 2 % 256) := by
  apply BitVec.eq_of_toNat_eq
  simp [Nat.shiftLeft_eq]

theorem shiftRight_one_eq_ofNat (m : Byte) : m >>> 1 = BitVec.ofNat 8 (m.toNat / 2) := by
  apply BitVec.eq_of_toNat_eq
  rw [BitVec.toNat_ushiftRight, Nat.shiftRight_eq_div_pow, BitVec.toNat_ofNat]
  omega

theorem shiftsByte_asl : ShiftsByte asl fun _ m => (BitVec.ofNat 8 (m.toNat * 2 % 256), m.getLsbD 7) := by
  simp only [← shiftLeft_one_eq_ofNat]
  exact fun _ _ _ => rfl

theorem shiftsByte_lsr : ShiftsByte lsr fun _ m => (BitVec.ofNat 8 (m.toNat / 2), m.getLsbD 0) := by
  simp only [← shiftRight_one_eq_ofNat]
  exact fun _ _ _ => rfl

theorem shiftsByte_rol :
    ShiftsByte rol fun c m => (BitVec.ofNat 8 (m.toNat * 2 % 256 + c.toNat), m.getLsbD 7) := by
  simp only [BitVec.ofNat_add, ← shiftLeft_one_eq_ofNat]
  exact fun _ _ _ => rfl

theorem shiftsByte_ror :
    ShiftsByte ror fun c m => (BitVec.ofNat 8 (m.toNat / 2 + c.toNat * 128), m.getLsbD 0) := by
  simp only [BitVec.ofNat_add, ← shiftRight_one_eq_ofNat]
  exact fun _ _ _ => rfl

/-! ## The instructions -/

/-- Settles O32: each rule with its arithmetic function of the byte, in A and in the four memory forms. -/
theorem aslLsrShiftThroughZero : Obligations.AslLsrShiftThroughZero := by
  constructor
  · have h := shiftsByte_asl
    refine ⟨⟨rfl, fun s => congrArg Host.Outcome.next (h.acc _ s)⟩, ?_, ?_, ?_, ?_⟩ <;>
      exact fun _ => ⟨rfl, h.changesByte.changes rfl fun _ => rfl⟩
  · have h := shiftsByte_lsr
    refine ⟨⟨rfl, fun s => congrArg Host.Outcome.next (h.acc _ s)⟩, ?_, ?_, ?_, ?_⟩ <;>
      exact fun _ => ⟨rfl, h.changesByte.changes rfl fun _ => rfl⟩

/-- Settles O33: the same shape, with the old C added to the byte at the end where it enters. -/
theorem rolRorRotateThroughCarry : Obligations.RolRorRotateThroughCarry := by
  constructor
  · have h := shiftsByte_rol
    refine ⟨⟨rfl, fun s => congrArg Host.Outcome.next (h.acc _ s)⟩, ?_, ?_, ?_, ?_⟩ <;>
      exact fun _ => ⟨rfl, h.changesByte.changes rfl fun _ => rfl⟩
  · have h := shiftsByte_ror
    refine ⟨⟨rfl, fun s => congrArg Host.Outcome.next (h.acc _ s)⟩, ?_, ?_, ?_, ?_⟩ <;>
      exact fun _ => ⟨rfl, h.changesByte.changes rfl fun _ => rfl⟩

end Sys2Proof.Proofs
end

section
/-! Logic and compare (45_logic_compare.md R150 to R156). -/

namespace Sys2Proof.Proofs

open Machine Laws Safety

/-! ## Logic -/

/-- Loading the operand does not move A, so the rule of AND, ORA and EOR may read it after the load. -/
theorem readsOperand_logic (f : Byte → Byte → Byte) :
    ReadsOperand (logic f) fun m s => setNZ (f s.a m) { s with a := f s.a m } := by
  intro _ op _
  cases op <;> rfl

/-- Settles O28: one rule with its bitwise function, on its operand byte in the Immediate form and in the seven memory forms. -/
theorem andOraEorCombineWithA : Obligations.AndOraEorCombineWithA := by
  refine ⟨?_, ?_, ?_⟩
  · have h := readsOperand_logic fun a m => a &&& m
    refine ⟨fun imm => ⟨rfl, fun s => congrArg Host.Outcome.next (h.imm _ imm s)⟩, ?_, ?_, ?_, ?_, ?_, ?_, ?_⟩ <;>
      exact fun _ => ⟨rfl, h.reads rfl fun _ => rfl⟩
  · have h := readsOperand_logic fun a m => a ||| m
    refine ⟨fun imm => ⟨rfl, fun s => congrArg Host.Outcome.next (h.imm _ imm s)⟩, ?_, ?_, ?_, ?_, ?_, ?_, ?_⟩ <;>
      exact fun _ => ⟨rfl, h.reads rfl fun _ => rfl⟩
  · have h := readsOperand_logic fun a m => a ^^^ m
    refine ⟨fun imm => ⟨rfl, fun s => congrArg Host.Outcome.next (h.imm _ imm s)⟩, ?_, ?_, ?_, ?_, ?_, ?_, ?_⟩ <;>
      exact fun _ => ⟨rfl, h.reads rfl fun _ => rfl⟩

/-! ## Compare -/

theorem sub_eq_ofNat (r m : Byte) : r - m = BitVec.ofNat 8 ((256 + r.toNat - m.toNat) % 256) := by
  apply BitVec.eq_of_toNat_eq
  rw [BitVec.toNat_sub, BitVec.toNat_ofNat]
  omega

/-- `Compare(r, m)` (R153) with the difference written as a number. -/
theorem compareBytes_eq (r m : Byte) (s : State) :
    compareBytes r m s =
      setNZ (BitVec.ofNat 8 ((256 + r.toNat - m.toNat) % 256)) { s with c := decide (m.toNat ≤ r.toNat) } := by
  rw [compareBytes, sub_eq_ofNat]

/-- A register that the record and the cycle counter do not influence reads the same before and after the load. -/
theorem readsOperand_compareWith {reg : State → Byte}
    (hreg : ∀ s trace cyc, reg { s with trace := trace, cyc := cyc } = reg s) :
    ReadsOperand (compareWith reg) fun m s =>
      setNZ (BitVec.ofNat 8 ((256 + (reg s).toNat - m.toNat) % 256)) { s with c := decide (m.toNat ≤ (reg s).toNat) } := by
  intro d op s
  have hload : reg (complete d (extraForOperand d op) (loadOperand op s).2) = reg s := by
    rw [complete_eq, loadOperand_snd]
    exact hreg s _ _
  dsimp only
  rw [hload, ← compareBytes_eq]
  rfl

/-- Settles O29: one rule with its register, with the difference written as a number. -/
theorem comparesSetCZNAndKeepTheRegister : Obligations.ComparesSetCZNAndKeepTheRegister := by
  refine ⟨?_, ?_, ?_⟩
  · have h : ReadsOperand cmp _ := readsOperand_compareWith fun _ _ _ => rfl
    refine ⟨fun imm => ⟨rfl, fun s => congrArg Host.Outcome.next (h.imm _ imm s)⟩, ?_, ?_, ?_, ?_, ?_, ?_, ?_⟩ <;>
      exact fun _ => ⟨rfl, h.reads rfl fun _ => rfl⟩
  · have h : ReadsOperand cpx _ := readsOperand_compareWith fun _ _ _ => rfl
    refine ⟨fun imm => ⟨rfl, fun s => congrArg Host.Outcome.next (h.imm _ imm s)⟩, ?_, ?_⟩ <;>
      exact fun _ => ⟨rfl, h.reads rfl fun _ => rfl⟩
  · have h : ReadsOperand cpy _ := readsOperand_compareWith fun _ _ _ => rfl
    refine ⟨fun imm => ⟨rfl, fun s => congrArg Host.Outcome.next (h.imm _ imm s)⟩, ?_, ?_⟩ <;>
      exact fun _ => ⟨rfl, h.reads rfl fun _ => rfl⟩

end Sys2Proof.Proofs
end

section
/-! The conditional branches (46_branch.md R160 to R168). -/

namespace Sys2Proof.Proofs

open Machine Laws Safety

/-! ## The rule of the eight (R160) -/

section
variable {d : Descriptor} (disp : Byte) (s : State)

/-- A branch not taken costs its base cycles and leaves PC past the displacement. -/
theorem branch_of_false (hbase : d.baseCycles = 2) : branch false d disp s = { s with cyc := s.cyc + 2 } := by
  rw [← hbase]
  rfl

/-- A branch taken costs one cycle more than its base, and another across a page. -/
theorem branch_of_true (hbase : d.baseCycles = 2) :
    branch true d disp s = { s with
      pc := (relativeTarget disp s).ea
      cyc := s.cyc + if (relativeTarget disp s).crossed then 4 else 3 } := by
  have hcycles : d.baseCycles + (1 + if (relativeTarget disp s).crossed then 1 else 0) =
      if (relativeTarget disp s).crossed then 4 else 3 := by
    rw [hbase]
    split <;> rfl
  rw [← hcycles]
  rfl

end

/-! ## The instructions -/

/-- An instruction of an opcode and a displacement, whose meaning is the rule with its own condition and base 2, is a branch. -/
theorem branches_of_exec_eq_branch {f : Byte × (Byte → Instr)} {cond : State → Bool}
    (hbytes : ∀ disp, fetchedBytes (f.2 disp) = [f.1, disp])
    (hbase : ∀ disp, (descriptor (f.2 disp)).baseCycles = 2)
    (hexec : ∀ disp s, exec (f.2 disp) s = .next (branch (cond s) (descriptor (f.2 disp)) disp s)) :
    Branches f cond := by
  refine fun disp => ⟨hbytes disp, fun s => ⟨fun hcond => ?_, fun hcond => ?_⟩⟩
  · rw [hexec, hcond, branch_of_false disp s (hbase disp)]
  · rw [hexec, hcond, branch_of_true disp s (hbase disp)]

/-- Settles O34: each of the eight is the rule with its flag, which the meaning and the descriptor say by definition. -/
theorem branchesTestTheirFlag : Obligations.BranchesTestTheirFlag := by
  refine ⟨?_, ?_, ?_, ?_, ?_, ?_, ?_, ?_⟩ <;>
    exact branches_of_exec_eq_branch (fun _ => rfl) (fun _ => rfl) fun _ _ => rfl

end Sys2Proof.Proofs
end

section
/-! Jumps (47_jump_call.md R170): the rule moves PC to the address that its mode resolves to. -/

namespace Sys2Proof.Proofs

open Machine Laws

/-- Resolving the mode moves nothing but the record, so a jump changes PC, the record and the counter. -/
theorem onAddress_jmp (mode : MemMode) (d : Descriptor) (s : State) :
    onAddress mode (jmp d) s = { s with
      pc := (resolve mode s).1.ea, trace := (resolve mode s).2.trace, cyc := s.cyc + d.baseCycles } := by
  rw [onAddress, jmp, complete_eq, resolve_snd]
  rfl

/-- Settles O35: both forms are the one rule on their mode. -/
theorem jmpLoadsPcWithTheEffectiveAddress : Obligations.JmpLoadsPcWithTheEffectiveAddress :=
  ⟨fun _ => ⟨rfl, fun s => congrArg Host.Outcome.next (onAddress_jmp _ _ s)⟩,
    fun _ => ⟨rfl, fun s => congrArg Host.Outcome.next (onAddress_jmp _ _ s)⟩⟩

end Sys2Proof.Proofs
end

section
/-! The stack (48_stack_flag.md R180, R181): pushes and pulls in a row, each as one update of the state. -/

namespace Sys2Proof.Proofs

open Machine Laws Safety

theorem pull_eq (s : State) :
    pull s = (s.mem.read (stackAddr (s.sp + 1#8)), { s with
      sp := s.sp + 1#8
      trace := s.trace ++ [.read (stackAddr (s.sp + 1#8)) (s.mem.read (stackAddr (s.sp + 1#8)))] }) := rfl

/-- Settles O18: the stack address as a number, and each operation's one update. -/
theorem pushWritesThenDecrementsAndPullIncrementsThenReads :
    Obligations.PushWritesThenDecrementsAndPullIncrementsThenReads :=
  ⟨stackAddr_toNat, fun val s => ⟨_, push_eq val s, bytesChanged_write _ _ _⟩, pull_eq⟩

theorem push_push_eq (first second : Byte) (s : State) :
    push second (push first s) = { s with
      mem := (s.mem.write (stackAddr s.sp) first).write (stackAddr (s.sp - 1#8)) second
      sp := s.sp - 2#8
      trace := s.trace ++ [.write (stackAddr s.sp) first, .write (stackAddr (s.sp - 1#8)) second] } := by
  simp [push_eq, sub_one_one]

theorem pull_pull_snd (s : State) :
    (pull (pull s).2).2 = { s with
      sp := s.sp + 2#8
      trace := s.trace ++ [.read (stackAddr (s.sp + 1#8)) (s.mem.read (stackAddr (s.sp + 1#8))),
        .read (stackAddr (s.sp + 2#8)) (s.mem.read (stackAddr (s.sp + 2#8)))] } := by
  simp [pull_eq, add_one_one]

/-! Pulling from where was pushed: SP goes down and comes back up. -/

theorem sub_two_add_one (b : Byte) : b - 2#8 + 1#8 = b - 1#8 := by rw [← sub_one_one, BitVec.sub_add_cancel]

theorem sub_three_add_one (b : Byte) : b - 3#8 + 1#8 = b - 2#8 := by rw [← sub_two_one, BitVec.sub_add_cancel]

theorem sub_three_add_two (b : Byte) : b - 3#8 + 2#8 = b - 1#8 := by
  rw [← add_one_one, sub_three_add_one, sub_two_add_one]

/-- Stack slots at different distances below SP are different addresses. -/
theorem stackAddr_sub_ne (sp : Byte) {k l : Byte} (h : k ≠ l) : stackAddr (sp - k) ≠ stackAddr (sp - l) := by
  rwa [ne_eq, stackAddr_inj, sub_right_inj]

/-- Two bytes pushed are two bytes changed. -/
theorem bytesChanged_two_pushes (m : Memory) (sp first second : Byte) :
    BytesChanged m ((m.write (stackAddr sp) first).write (stackAddr (sp - 1#8)) second)
      [(stackAddr sp, first), (stackAddr (sp - 1#8), second)] := by
  have h01 : stackAddr sp ≠ stackAddr (sp - 1#8) := by
    simpa using stackAddr_sub_ne sp (show 0#8 ≠ 1#8 by decide)
  exact bytesChanged_write_append (bytesChanged_write m _ first) _ second
    (List.forall_mem_cons.2 ⟨h01, List.forall_mem_nil _⟩)

/-- Three bytes pushed are three bytes changed. -/
theorem bytesChanged_three_pushes (m : Memory) (sp first second third : Byte) :
    BytesChanged m (((m.write (stackAddr sp) first).write (stackAddr (sp - 1#8)) second).write (stackAddr (sp - 2#8)) third)
      [(stackAddr sp, first), (stackAddr (sp - 1#8), second), (stackAddr (sp - 2#8), third)] := by
  have h02 : stackAddr sp ≠ stackAddr (sp - 2#8) := by
    simpa using stackAddr_sub_ne sp (show 0#8 ≠ 2#8 by decide)
  have h12 : stackAddr (sp - 1#8) ≠ stackAddr (sp - 2#8) := stackAddr_sub_ne sp (by decide)
  exact bytesChanged_write_append (bytesChanged_two_pushes m sp first second) _ third
    (List.forall_mem_cons.2 ⟨h02, List.forall_mem_cons.2 ⟨h12, List.forall_mem_nil _⟩⟩)

end Sys2Proof.Proofs
end

section
/-! JSR and RTS (47_jump_call.md R171, R172). -/

namespace Sys2Proof.Proofs

open Machine Laws Safety

/-- Settles O36: two pushes, then the jump. -/
theorem jsrPushesTheAddressOfItsLastByte : Obligations.JsrPushesTheAddressOfItsLastByte := by
  refine fun addr => ⟨rfl, fun s => ⟨_, congrArg Host.Outcome.next ?_, bytesChanged_two_pushes s.mem s.sp _ _⟩⟩
  rw [onAddress, jsr, push_push_eq, complete_eq]
  rfl

/-- RTS as one update, with the word of the two bytes pulled. -/
theorem exec_rts (s : State) :
    exec .rts s = .next (
      let lo := s.mem.read (stackAddr (s.sp + 1#8))
      let hi := s.mem.read (stackAddr (s.sp + 2#8))
      { s with
        pc := mkWord hi lo + 1#16, sp := s.sp + 2#8, cyc := s.cyc + 6
        trace := s.trace ++ [.read (stackAddr (s.sp + 1#8)) lo, .read (stackAddr (s.sp + 2#8)) hi] }) := by
  rw [exec, execRts, rts, pull_pull_snd, complete_eq, pull_val, pull_val, pull_mem, pull_sp, add_one_one]
  rfl

/-- The word after the one with these bytes, as a number. -/
theorem mkWord_add_one_eq_ofNat (hi lo : Byte) :
    mkWord hi lo + 1#16 = BitVec.ofNat 16 ((hi.toNat * 256 + lo.toNat + 1) % 65536) := by
  apply BitVec.eq_of_toNat_eq
  simp

/-- Settles O37: the address as a number. -/
theorem rtsPullsPcAndAddsOne : Obligations.RtsPullsPcAndAddsOne := by
  refine ⟨rfl, fun s => ?_⟩
  simp only [exec_rts, mkWord_add_one_eq_ofNat]

/-- Settles O56: what JSR pushed lies where RTS pulls, and the word pulled is PC - 1. -/
theorem jsrThenRtsResumesAfterTheCall : Obligations.JsrThenRtsResumesAfterTheCall := by
  intro addr s
  obtain ⟨mem', hjsr, hpushed, -⟩ := (jsrPushesTheAddressOfItsLastByte addr).2 s
  obtain ⟨hhi, hlo⟩ := by simpa using hpushed
  refine ⟨_, _, hjsr, rfl, exec_rts _, ?_⟩
  simp [sub_two_add_one, hhi, hlo]

end Sys2Proof.Proofs
end

section
/-! The stack instructions and the flag instructions (48_stack_flag.md R182 to R192). -/

namespace Sys2Proof.Proofs

open Machine Laws Safety

/-- Settles O38: one push, and one pull whose byte N and Z describe. -/
theorem phaPushesAAndPlaPullsIt : Obligations.PhaPushesAAndPlaPullsIt :=
  ⟨⟨rfl, fun _ => ⟨_, congrArg Host.Outcome.next (complete_eq _ _ _), bytesChanged_write _ _ _⟩⟩,
    rfl, fun _ => congrArg Host.Outcome.next (complete_eq _ _ _)⟩

/-- Settles O39: one push of the status byte, with bits 5 and 4 read off its list of bits. -/
theorem phpPushesTheStatusWithBAsStored : Obligations.PhpPushesTheStatusWithBAsStored :=
  ⟨rfl, fun s => ⟨_, congrArg Host.Outcome.next (complete_eq _ _ _), bytesChanged_write _ _ _,
    getLsbD_statusByte s 5, getLsbD_statusByte s 4⟩⟩

/-- PLP as one update of the flags of the byte pulled. -/
theorem exec_plp (s : State) :
    exec .plp s = .next (
      let p := s.mem.read (stackAddr (s.sp + 1#8))
      { setStatus p s with
        sp := s.sp + 1#8, cyc := s.cyc + 4, trace := s.trace ++ [.read (stackAddr (s.sp + 1#8)) p] }) := rfl

/-- Settles O40: PLP pulls from where PHP pushed, and a status byte unpacks to the flags it was packed from. -/
theorem plpLoadsTheStatusAndUndoesPhp : Obligations.PlpLoadsTheStatusAndUndoesPhp := by
  refine ⟨⟨rfl, exec_plp⟩, fun s => ?_⟩
  obtain ⟨mem', hphp, ⟨hpushed, -⟩, -⟩ := phpPushesTheStatusWithBAsStored.2 s
  have htop : mem'.read (stackAddr s.sp) = statusByte s := by simpa using hpushed
  refine ⟨_, _, hphp, exec_plp _, ?_⟩
  simp only [BitVec.sub_add_cancel, htop, setStatus, getLsbD_statusByte]
  rfl

/-- Settles O41: a flag instruction's meaning is its update of the flag, completed without an extra cycle. -/
theorem flagInstructionsChangeOneFlag : Obligations.FlagInstructionsChangeOneFlag := by
  refine ⟨?_, ?_, ?_, ?_, ?_, ?_, ?_⟩ <;>
    exact ⟨rfl, fun _ => congrArg Host.Outcome.next (complete_eq _ _ _)⟩

end Sys2Proof.Proofs
end

section
/-! BIT, NOP, BRK and RTI (49_bit_nop_brk_rti.md R200 to R203; 60_exceptions.md R215, R217). -/

namespace Sys2Proof.Proofs

open Machine Laws Safety

/-- BIT at an address as one update; it pays for no page cross. -/
theorem bit_addr (d : Descriptor) (p : Address) (s : State) :
    bit d (.addr p) s = (
      let m := s.mem.read p.ea
      { s with
        z := (s.a &&& m) == 0x00#8, n := m.getLsbD 7, v := m.getLsbD 6
        trace := s.trace ++ [.read p.ea m], cyc := s.cyc + d.baseCycles }) := rfl

/-- Settles O43: the rule on its operand byte, in both memory forms. -/
theorem bitTestsAWithTheByte : Obligations.BitTestsAWithTheByte :=
  ⟨fun _ => ⟨rfl, fun s => congrArg Host.Outcome.next (bit_addr _ _ s)⟩,
    fun _ => ⟨rfl, fun s => congrArg Host.Outcome.next (bit_addr _ _ s)⟩⟩

/-- Settles O44: NOP's meaning is its completion. -/
theorem nopChangesNothingButCycles : Obligations.NopChangesNothingButCycles :=
  ⟨rfl, fun _ => congrArg Host.Outcome.next (complete_eq _ _ _)⟩

/-- Settles O45: the trap as one update, and the bits of the byte pushed read off its list of bits. -/
theorem brkTakesTheTrap : Obligations.BrkTakesTheTrap := by
  refine ⟨rfl, rfl, fun s => ⟨_, congrArg Host.Outcome.next ?_, bytesChanged_three_pushes s.mem s.sp _ _ _,
    getLsbD_statusByte _ 5, getLsbD_statusByte _ 4, getLsbD_statusByte _ 2⟩⟩
  rw [enterBrk_eq, complete_eq, ← mkWord_eq_ofNat]
  rfl

/-- Settles O46: the return as one update, with the address as a number. -/
theorem rtiRestoresFlagsAndPc : Obligations.RtiRestoresFlagsAndPc := by
  refine ⟨rfl, fun s => congrArg Host.Outcome.next ?_⟩
  rw [returnFromBrk_eq, complete_eq, ← mkWord_eq_ofNat]
  rfl

/-- Settles O55: what BRK pushed lies where RTI pulls, and the status byte pushed unpacks to the flags with B set and the
old I. -/
theorem brkThenRtiResumesAfterThePadding : Obligations.BrkThenRtiResumesAfterThePadding := by
  intro s
  obtain ⟨mem', hbrk, ⟨hpushed, -⟩, -⟩ := brkTakesTheTrap.2.2 s
  obtain ⟨hhi, hlo, hstatus⟩ := by simpa using hpushed
  refine ⟨_, _, hbrk, rtiRestoresFlagsAndPc.2 _, ?_⟩
  simp only [sub_three_add_one, sub_three_add_two, BitVec.sub_add_cancel, hhi, hlo, hstatus, getLsbD_statusByte,
    ← mkWord_eq_ofNat, mkWord_hiByte_loByte]
  rfl

end Sys2Proof.Proofs
end

section
/-! The illegal-opcode fault (60_exceptions.md R211). -/

namespace Sys2Proof.Proofs

open Machine Laws

/-- A running step on a byte without an entry is the fault, raised from the state its opcode fetch left. -/
theorem step_of_lookupOpcode_eq_none {s : State} (hrun : s.run = .running)
    (hnone : lookupOpcode (s.mem.read s.pc) = none) :
    step s = .fault (raiseIllegalOpcode (s.mem.read s.pc) s.pc (fetch8 (beginStep s)).2) := by
  have hfetch : fetchInstr (beginStep s) =
      .error (raiseIllegalOpcode (s.mem.read s.pc) s.pc (fetch8 (beginStep s)).2) := by
    simp [fetchInstr, hnone]
  rw [step_of_running hrun, hfetch]

theorem running_of_step_eq_fault {s : State} {f : Fault} (h : step s = .fault f) : s.run = .running := by
  by_contra hr
  rw [(stepIsEnabledOnlyInRunning s).1 hr] at h
  cases h

/-- Settles O7: a byte without an entry faults, a byte with one completes, and a faulted machine is refused a step. -/
theorem undefinedOpcodeFaultsAndNothingElseDoes : Obligations.UndefinedOpcodeFaultsAndNothingElseDoes := by
  refine ⟨fun s hrun hundefined => ?_, fun s f hfault => ?_, fun s opcode addr hrun => ?_⟩
  · exact step_of_lookupOpcode_eq_none hrun (lookupOpcode_eq_none_iff.2 hundefined)
  · by_contra hdefined
    obtain ⟨t, hnext, -⟩ :=
      runningStepCompletesUnlessTheOpcodeIsUndefined s (running_of_step_eq_fault hfault) hdefined
    rw [hnext] at hfault
    cases hfault
  · rw [(stepIsEnabledOnlyInRunning s).1 (by simp [hrun]), hrun]

end Sys2Proof.Proofs
end

section
/-! Reset (70_reset_and_hazards.md R240; 10_state.md R35). -/

namespace Sys2Proof.Proofs

open Machine Laws Safety

/-- The status byte after reset holds I and bit 5. -/
theorem statusByte_resetWith (entry : Word) (mem0 : Memory) : statusByte (State.resetWith entry mem0) = 0x24#8 := by
  simp [statusByte, State.resetWith]

/-- Settles O10: the fields of the reset state. -/
theorem resetLoadsTheDocumentedValues : Obligations.ResetLoadsTheDocumentedValues := fun entry s =>
  ⟨rfl, statusByte_resetWith entry s.mem⟩

/-- The record is empty after reset, so it accounts for the memory as it was given. -/
theorem inv_resetWith (entry : Word) {mem0 : Memory} (h : mem0.wf = true) : Inv mem0 (State.resetWith entry mem0) where
  canonical := h
  running := rfl
  accounted := rfl

/-- Settles O53: the memory with nothing listed is canonical too. -/
theorem resetMeetsTheInvariant : Obligations.ResetMeetsTheInvariant :=
  ⟨fun entry _ h => inv_resetWith entry h, inv_resetWith _ wf_nil⟩

end Sys2Proof.Proofs
end

section
/-! What an instruction costs (70_reset_and_hazards.md R252; 40_addressing_modes.md R95; 46_branch.md R160). -/

namespace Sys2Proof.Proofs

open Machine Laws

/-! ## The meanings -/

/-- The base count, and one cycle more if the opcode has the page-cross penalty. -/
def withPenalty (d : Descriptor) : Nat := d.baseCycles + if d.pageCrossPenalty then 1 else 0

/-- The most cycles an instruction takes: a branch has its own limit. -/
def maxCycles (i : Instr) : Nat :=
  if i.form.mode = .relative then 4 else withPenalty (descriptor i)

/-- From `s` to `t` at least the base count was added to the cycle counter, and at most `most`. -/
def Costs (d : Descriptor) (most : Nat) (s t : State) : Prop :=
  s.cyc + d.baseCycles ≤ t.cyc ∧ t.cyc ≤ s.cyc + most

/-- Completing is the one operation that adds cycles. -/
theorem costs_complete {d : Descriptor} {extra most : Nat} {s u : State} (hu : u.cyc = s.cyc)
    (hmost : d.baseCycles + extra ≤ most) : Costs d most s (complete d extra u) := by
  unfold Costs
  rw [complete_cyc, hu]
  omega

theorem loadOperand_cyc (op : Operand) (s : State) : (loadOperand op s).2.cyc = s.cyc := by
  rw [loadOperand_snd]

/-- A rule that reads its operand pays for a page cross if its opcode has the penalty. -/
theorem costs_reading {d : Descriptor} {op : Operand} {s u : State} (hu : u.cyc = (loadOperand op s).2.cyc) :
    Costs d (withPenalty d) s (complete d (extraForOperand d op) u) := by
  refine costs_complete (hu.trans (loadOperand_cyc op s)) (Nat.add_le_add_left ?_ _)
  cases hp : d.pageCrossPenalty with
  | true => exact extraForOperand_le d op
  | false => exact Nat.le_of_eq (extraForOperand_of_not_penalty hp op)

/-- A rule without an extra cycle. -/
theorem costs_base {d : Descriptor} {s u : State} (hu : u.cyc = s.cyc) : Costs d (withPenalty d) s (complete d 0 u) :=
  costs_complete hu (Nat.le_add_right _ _)

section
variable {d : Descriptor} {most : Nat}

/-- Resolving a mode adds no cycles, so what follows it costs what the whole does. -/
theorem costs_of_resolve {mode : MemMode} {s u : State} (h : Costs d most (resolve mode s).2 u) : Costs d most s u := by
  rw [resolve_snd] at h
  exact h

theorem costs_onOperand {rule : Operand → State → State} (h : ∀ op s, Costs d most s (rule op s)) (mode : MemMode)
    (s : State) : Costs d most s (onOperand mode rule s) := costs_of_resolve (h _ _)

theorem costs_onPlace {rule : Place → State → State} (h : ∀ place s, Costs d most s (rule place s)) (mode : MemMode)
    (s : State) : Costs d most s (onPlace mode rule s) := costs_of_resolve (h _ _)

theorem costs_onAddress {rule : Address → State → State} (h : ∀ p s, Costs d most s (rule p s)) (mode : MemMode)
    (s : State) : Costs d most s (onAddress mode rule s) := costs_of_resolve (h _ _)

end

section
variable (d : Descriptor) (op : Operand) (p : Address) (place : Place) (s : State)

theorem costs_lda : Costs d (withPenalty d) s (lda d op s) := costs_reading rfl

theorem costs_ldx : Costs d (withPenalty d) s (ldx d op s) := costs_reading rfl

theorem costs_ldy : Costs d (withPenalty d) s (ldy d op s) := costs_reading rfl

theorem costs_adc : Costs d (withPenalty d) s (adc d op s) := costs_reading rfl

theorem costs_sbc : Costs d (withPenalty d) s (sbc d op s) := costs_reading rfl

theorem costs_logic (f : Byte → Byte → Byte) : Costs d (withPenalty d) s (logic f d op s) := costs_reading rfl

theorem costs_compareWith (r : State → Byte) : Costs d (withPenalty d) s (compareWith r d op s) := costs_reading rfl

theorem costs_sta : Costs d (withPenalty d) s (sta d p s) := costs_base rfl

theorem costs_stx : Costs d (withPenalty d) s (stx d p s) := costs_base rfl

theorem costs_sty : Costs d (withPenalty d) s (sty d p s) := costs_base rfl

theorem costs_changeMemory (f : Byte → Byte) : Costs d (withPenalty d) s (changeMemory f d place s) :=
  costs_base (by cases place <;> rfl)

theorem costs_shiftPlace (f : Byte → Byte × Bool) : Costs d (withPenalty d) s (shiftPlace f d place s) :=
  costs_base (by cases place <;> rfl)

theorem costs_jmp : Costs d (withPenalty d) s (jmp d p s) := costs_base rfl

theorem costs_jsr : Costs d (withPenalty d) s (jsr d p s) := costs_base rfl

theorem costs_bit : Costs d (withPenalty d) s (bit d op s) := costs_base (loadOperand_cyc op s)

end

theorem costs_branch {d : Descriptor} (hbase : d.baseCycles = 2) (cond : Bool) (disp : Byte) (s : State) :
    Costs d 4 s (branch cond d disp s) := by
  unfold Costs
  cases cond with
  | false => rw [branch_of_false disp s hbase]; simp [hbase]
  | true => rw [branch_of_true disp s hbase]; dsimp only; split <;> omega

/-- Every meaning answers a next state and costs between its base count and its most. -/
theorem exec_costs (i : Instr) (s : State) : ∃ t, exec i s = .next t ∧ Costs (descriptor i) (maxCycles i) s t := by
  match i with
  | .ldaImm _ => exact ⟨_, rfl, costs_lda _ _ s⟩
  | .ldaZp _ | .ldaZpX _ | .ldaAbs _ | .ldaAbsX _ | .ldaAbsY _ | .ldaIndX _ | .ldaIndY _ =>
    exact ⟨_, rfl, costs_onOperand (costs_lda _) _ s⟩
  | .ldxImm _ => exact ⟨_, rfl, costs_ldx _ _ s⟩
  | .ldxZp _ | .ldxZpY _ | .ldxAbs _ | .ldxAbsY _ => exact ⟨_, rfl, costs_onOperand (costs_ldx _) _ s⟩
  | .ldyImm _ => exact ⟨_, rfl, costs_ldy _ _ s⟩
  | .ldyZp _ | .ldyZpX _ | .ldyAbs _ | .ldyAbsX _ => exact ⟨_, rfl, costs_onOperand (costs_ldy _) _ s⟩
  | .staZp _ | .staZpX _ | .staAbs _ | .staAbsX _ | .staAbsY _ | .staIndX _ | .staIndY _ =>
    exact ⟨_, rfl, costs_onAddress (costs_sta _) _ s⟩
  | .stxZp _ | .stxZpY _ | .stxAbs _ => exact ⟨_, rfl, costs_onAddress (costs_stx _) _ s⟩
  | .styZp _ | .styZpX _ | .styAbs _ => exact ⟨_, rfl, costs_onAddress (costs_sty _) _ s⟩
  | .tax | .tay | .txa | .tya | .tsx | .txs | .inx | .iny | .dex | .dey | .rts | .pha | .pla | .php | .plp | .clc
  | .sec | .cli | .sei | .cld | .sed | .clv | .nop | .rti =>
    exact ⟨_, rfl, costs_base rfl⟩
  | .adcImm _ => exact ⟨_, rfl, costs_adc _ _ s⟩
  | .adcZp _ | .adcZpX _ | .adcAbs _ | .adcAbsX _ | .adcAbsY _ | .adcIndX _ | .adcIndY _ =>
    exact ⟨_, rfl, costs_onOperand (costs_adc _) _ s⟩
  | .sbcImm _ => exact ⟨_, rfl, costs_sbc _ _ s⟩
  | .sbcZp _ | .sbcZpX _ | .sbcAbs _ | .sbcAbsX _ | .sbcAbsY _ | .sbcIndX _ | .sbcIndY _ =>
    exact ⟨_, rfl, costs_onOperand (costs_sbc _) _ s⟩
  | .incZp _ | .incZpX _ | .incAbs _ | .incAbsX _ | .decZp _ | .decZpX _ | .decAbs _ | .decAbsX _ =>
    exact ⟨_, rfl, costs_onPlace (fun place s => costs_changeMemory _ place s _) _ s⟩
  | .aslAcc | .lsrAcc | .rolAcc | .rorAcc => exact ⟨_, rfl, costs_shiftPlace _ _ s _⟩
  | .aslZp _ | .aslZpX _ | .aslAbs _ | .aslAbsX _ | .lsrZp _ | .lsrZpX _ | .lsrAbs _ | .lsrAbsX _ | .rolZp _
  | .rolZpX _ | .rolAbs _ | .rolAbsX _ | .rorZp _ | .rorZpX _ | .rorAbs _ | .rorAbsX _ =>
    exact ⟨_, rfl, costs_onPlace (fun place s => costs_shiftPlace _ place s _) _ s⟩
  | .andImm _ | .oraImm _ | .eorImm _ => exact ⟨_, rfl, costs_logic _ _ s _⟩
  | .andZp _ | .andZpX _ | .andAbs _ | .andAbsX _ | .andAbsY _ | .andIndX _ | .andIndY _ | .oraZp _ | .oraZpX _
  | .oraAbs _ | .oraAbsX _ | .oraAbsY _ | .oraIndX _ | .oraIndY _ | .eorZp _ | .eorZpX _ | .eorAbs _ | .eorAbsX _
  | .eorAbsY _ | .eorIndX _ | .eorIndY _ =>
    exact ⟨_, rfl, costs_onOperand (fun op s => costs_logic _ op s _) _ s⟩
  | .cmpImm _ | .cpxImm _ | .cpyImm _ => exact ⟨_, rfl, costs_compareWith _ _ s _⟩
  | .cmpZp _ | .cmpZpX _ | .cmpAbs _ | .cmpAbsX _ | .cmpAbsY _ | .cmpIndX _ | .cmpIndY _ | .cpxZp _ | .cpxAbs _
  | .cpyZp _ | .cpyAbs _ =>
    exact ⟨_, rfl, costs_onOperand (fun op s => costs_compareWith _ op s _) _ s⟩
  | .bcc _ | .bcs _ | .beq _ | .bne _ | .bmi _ | .bpl _ | .bvc _ | .bvs _ => exact ⟨_, rfl, costs_branch rfl _ _ s⟩
  | .jmpAbs _ | .jmpInd _ => exact ⟨_, rfl, costs_onAddress (costs_jmp _) _ s⟩
  | .jsr _ => exact ⟨_, rfl, costs_onAddress (costs_jsr _) _ s⟩
  | .bitZp _ | .bitAbs _ => exact ⟨_, rfl, costs_onOperand (costs_bit _) _ s⟩
  | .brk => exact ⟨_, rfl, costs_base (by rw [enterBrk_eq])⟩

theorem costs_of_exec_eq_next {i : Instr} {s t : State} (h : exec i s = .next t) :
    Costs (descriptor i) (maxCycles i) s t := by
  obtain ⟨t', ht', hcosts⟩ := exec_costs i s
  obtain rfl : t = t' := by simpa [h] using ht'
  exact hcosts

/-- The table's counts (R66): no instruction takes less than 2 cycles or more than 7. -/
theorem two_le_baseCycles_and_maxCycles_le_seven (i : Instr) : 2 ≤ (descriptor i).baseCycles ∧ maxCycles i ≤ 7 := by
  cases i <;> exact ⟨Nat.le_of_ble_eq_true rfl, Nat.le_of_ble_eq_true rfl⟩

/-! ## The step -/

theorem fetchOperand_cyc (e : Entry) (s : State) : (fetchOperand e s).2.cyc = s.cyc := by
  cases e <;> rfl

/-- A step that completes is the meaning of some instruction, on a state whose cycle counter the fetch left alone. -/
theorem exec_of_step_eq_next {s t : State} (h : step s = .next t) : ∃ i u, u.cyc = s.cyc ∧ exec i u = .next t := by
  obtain ⟨hrun, -⟩ := step_accounts h
  cases he : lookupOpcode (s.mem.read s.pc) with
  | none => simp [step_of_lookupOpcode_eq_none hrun he] at h
  | some e =>
    refine ⟨(fetchOperand e (fetch8 (beginStep s)).2).1, _, fetchOperand_cyc e (fetch8 (beginStep s)).2, ?_⟩
    simpa [step_of_running hrun, fetchInstr, he] using h

/-- Settles O50: a step costs what its meaning does, and the cases of `maxCycles` are those of the statement. -/
theorem everyStepCostsTwoToSevenCycles : Obligations.EveryStepCostsTwoToSevenCycles := by
  refine ⟨fun s t h => ?_, fun i s t h => ?_⟩
  · obtain ⟨i, u, hcyc, hu⟩ := exec_of_step_eq_next h
    obtain ⟨hleast, hmost⟩ := costs_of_exec_eq_next hu
    obtain ⟨htwo, hseven⟩ := two_le_baseCycles_and_maxCycles_le_seven i
    omega
  · obtain ⟨hleast, hmost⟩ := costs_of_exec_eq_next h
    unfold maxCycles withPenalty at hmost
    refine ⟨hleast, ?_, fun hmode hpenalty => ?_⟩
    · split at hmost
      · exact .inr ⟨‹_›, hmost⟩
      · left; split at hmost <;> omega
    · rw [if_neg hmode, hpenalty] at hmost
      exact Nat.le_antisymm hmost hleast

end Sys2Proof.Proofs
end

section
/-! The run loop (70_reset_and_hazards.md R246 to R249; log entry 14), by what its first step does. -/

namespace Sys2Proof.Proofs

open Machine Safety

variable {halt : State → Bool} {k fuel : Nat} {s s' t f : State}

/-! ## The first step -/

theorem stepsTo_succ_of_next (h : step s = .next s') (k : Nat) : stepsTo (k + 1) s = stepsTo k s' := by
  simp [stepsTo, h]

theorem runUntil_succ_of_true (h : step s = .next s') (hs' : halt s' = true) (fuel : Nat) :
    runUntil halt (fuel + 1) s = .halted { s' with run := .halted } := by
  simp [runUntil, h, hs']

theorem runUntil_succ_of_false (h : step s = .next s') (hs' : halt s' = false) (fuel : Nat) :
    runUntil halt (fuel + 1) s = runUntil halt fuel s' := by
  simp [runUntil, h, hs']

/-! ## Where a run halts -/

/-- Step `k + 1` reaches `t`, the predicate is true there and after no earlier step, and `f` is `t` halted. -/
def HaltsAt (halt : State → Bool) (k : Nat) (s t f : State) : Prop :=
  stepsTo (k + 1) s = some t ∧ halt t = true ∧ f = { t with run := .halted } ∧
    ∀ j u, 1 ≤ j → j ≤ k → stepsTo j s = some u → halt u = false

/-- The first sample is true: the run halts there. -/
theorem haltsAt_iff_of_true (h : step s = .next s') (hs' : halt s' = true) :
    HaltsAt halt k s t f ↔ k = 0 ∧ t = s' ∧ f = { s' with run := .halted } := by
  constructor
  · rintro ⟨hsteps, -, hf, hearlier⟩
    cases k with
    | zero =>
      obtain rfl : s' = t := Option.some.inj ((stepsTo_succ_of_next h 0).symm.trans hsteps)
      exact ⟨rfl, rfl, hf⟩
    | succ k =>
      have hfirst := hearlier 1 s' (Nat.le_refl 1) (by omega) (stepsTo_succ_of_next h 0)
      simp [hs'] at hfirst
  · rintro ⟨rfl, rfl, hf⟩
    exact ⟨stepsTo_succ_of_next h 0, hs', hf, fun j u hj hj' => by omega⟩

/-- The first sample is false: the run halts where it does from the state after the first step, one step later. -/
theorem haltsAt_iff_of_false (h : step s = .next s') (hs' : halt s' = false) :
    HaltsAt halt k s t f ↔ ∃ k', k = k' + 1 ∧ HaltsAt halt k' s' t f := by
  constructor
  · rintro ⟨hsteps, ht, hf, hearlier⟩
    rw [stepsTo_succ_of_next h] at hsteps
    cases k with
    | zero =>
      obtain rfl : s' = t := Option.some.inj hsteps
      simp [hs'] at ht
    | succ k =>
      refine ⟨k, rfl, hsteps, ht, hf, fun j u hj hj' hu => ?_⟩
      exact hearlier (j + 1) u (by omega) (by omega) ((stepsTo_succ_of_next h j).trans hu)
  · rintro ⟨k, rfl, hsteps, ht, hf, hearlier⟩
    refine ⟨(stepsTo_succ_of_next h _).trans hsteps, ht, hf, fun j u hj hj' hu => ?_⟩
    match j with
    | 1 =>
      obtain rfl : s' = u := Option.some.inj ((stepsTo_succ_of_next h 0).symm.trans hu)
      exact hs'
    | j + 2 => exact hearlier (j + 1) u (by omega) (by omega) ((stepsTo_succ_of_next h _).symm.trans hu)

/-- Settles O57, by induction on the steps allowed: a run either halts at its first sample or is the run after its first
step. -/
theorem runHaltsAtTheFirstTrueSample : Obligations.RunHaltsAtTheFirstTrueSample := by
  intro halt fuel s f
  change _ ↔ ∃ k t, k + 1 ≤ fuel ∧ HaltsAt halt k s t f
  induction fuel generalizing s with
  | zero => simp [runUntil]
  | succ fuel ih =>
    cases h : step s with
    | next s' =>
      cases hs' : halt s' with
      | true => simp [runUntil_succ_of_true h hs', haltsAt_iff_of_true h hs', eq_comm]
      | false =>
        simp only [runUntil_succ_of_false h hs', ih, haltsAt_iff_of_false h hs']
        constructor
        · rintro ⟨k, t, hk, hat⟩
          exact ⟨k + 1, t, Nat.succ_le_succ hk, k, rfl, hat⟩
        · rintro ⟨_, t, hk, k, rfl, hat⟩
          exact ⟨k, t, Nat.le_of_succ_le_succ hk, hat⟩
    | fault _ | refused _ => simp [runUntil, HaltsAt, stepsTo, h]

/-- Settles O58, by induction on the steps allowed first. -/
theorem moreStepsDoNotChangeTheEnd : Obligations.MoreStepsDoNotChangeTheEnd := by
  intro halt fuel more s hended
  induction fuel generalizing s with
  | zero => exact absurd rfl (hended s)
  | succ fuel ih =>
    rw [Nat.succ_add]
    cases h : step s with
    | next s' =>
      cases hs' : halt s' with
      | true => rw [runUntil_succ_of_true h hs', runUntil_succ_of_true h hs']
      | false =>
        rw [runUntil_succ_of_false h hs'] at hended ⊢
        rw [runUntil_succ_of_false h hs']
        exact ih s' hended
    | fault _ | refused _ => simp [runUntil, h]

/-! ## HaltOnVectorRead (R247) -/

/-- Settles O59: 0x00 is what BRK is fetched from, and the trap reads the vector. -/
theorem brkTripsHaltOnVectorRead : Obligations.BrkTripsHaltOnVectorRead := by
  intro s hrun hbyte
  have hstep := stepRunsTheDecodedInstruction .brk s hrun ⟨hbyte, trivial⟩
  obtain ⟨mem', hbrk, -⟩ := brkTakesTheTrap.2.2 _
  exact ⟨_, hstep.trans hbrk, by simp [haltOnVectorRead, Transaction.readsVector, brkVectorLow]⟩

end Sys2Proof.Proofs
end
